-- ==== Sys2Proof/Word.lean ====
section
/-! DEFINITION. The widths of the machine: bytes, 16-bit words, 12-bit immediates, register numbers
and key numbers (00_scope.md R4 and R7, 30_encoding.md R61 and R62). -/

namespace Sys2Proof

/-- A general register, a memory byte, DT and ST: 8 bits, unsigned (R4, `XLEN`). -/
abbrev Byte := BitVec 8

/-- PC, I, a stack slot and an instruction word: 16 bits (R4, `AWIDTH` and `ILEN`). -/
abbrev Word := BitVec 16

/-- The 12-bit immediate `nnn` (R61). -/
abbrev Imm12 := BitVec 12

/-- A register number: one nibble, so always 0 to 15 (R62). -/
abbrev Reg := Fin 16

/-- A logical key number, 0 to 15 (R153). -/
abbrev Key := Fin 16

/-- The default of the argument `TIME`: natural nanoseconds (R4; D13; log 1). -/
abbrev Time := Nat

/-- The register VF (R11). -/
abbrev vF : Reg := 15

end Sys2Proof
end

