-- ==== Sys2Proof/Syntax.lean ====
section
/-! DEFINITION. The 34 instructions, one constructor for each row of the opcode map (30_encoding.md R65),
in the order of its rows. The operand types hold exactly the values the encoding admits (R61, R62). -/

namespace Sys2Proof

/-- One instruction with its operands (R65). -/
inductive Instr where
  /-- `00E0` CLS (R157). -/
  | cls
  /-- `00EE` RET (R85). -/
  | ret
  /-- `1nnn` JP nnn (R83). -/
  | jp (nnn : Imm12)
  /-- `2nnn` CALL nnn (R84). -/
  | call (nnn : Imm12)
  /-- `3xnn` SE Vx, nn (R87). -/
  | seVxNn (x : Reg) (nn : Byte)
  /-- `4xnn` SNE Vx, nn (R88). -/
  | sneVxNn (x : Reg) (nn : Byte)
  /-- `5xy0` SE Vx, Vy (R89). -/
  | seVxVy (x y : Reg)
  /-- `6xnn` LD Vx, nn (R103). -/
  | ldVxNn (x : Reg) (nn : Byte)
  /-- `7xnn` ADD Vx, nn (R104). -/
  | addVxNn (x : Reg) (nn : Byte)
  /-- `8xy0` LD Vx, Vy (R105). -/
  | ldVxVy (x y : Reg)
  /-- `8xy1` OR Vx, Vy (R106). -/
  | or (x y : Reg)
  /-- `8xy2` AND Vx, Vy (R107). -/
  | and (x y : Reg)
  /-- `8xy3` XOR Vx, Vy (R108). -/
  | xor (x y : Reg)
  /-- `8xy4` ADD Vx, Vy (R109). -/
  | addVxVy (x y : Reg)
  /-- `8xy5` SUB Vx, Vy (R110). -/
  | sub (x y : Reg)
  /-- `8xy6` SHR Vx; the y field is in the encoding and ignored by the meaning (R111). -/
  | shr (x y : Reg)
  /-- `8xy7` SUBN Vx, Vy (R112). -/
  | subn (x y : Reg)
  /-- `8xyE` SHL Vx; the y field is in the encoding and ignored by the meaning (R113). -/
  | shl (x y : Reg)
  /-- `9xy0` SNE Vx, Vy (R90). -/
  | sneVxVy (x y : Reg)
  /-- `Annn` LD I, nnn (R120). -/
  | ldINnn (nnn : Imm12)
  /-- `Bnnn` JP V0, nnn (R86). -/
  | jpV0 (nnn : Imm12)
  /-- `Cxnn` RND Vx, nn (R143). -/
  | rnd (x : Reg) (nn : Byte)
  /-- `Dxyn` DRW Vx, Vy, n; n is a count, 0 to 15 (R158). -/
  | drw (x y : Reg) (n : Fin 16)
  /-- `Ex9E` SKP Vx (R159). -/
  | skp (x : Reg)
  /-- `ExA1` SKNP Vx (R160). -/
  | sknp (x : Reg)
  /-- `Fx07` LD Vx, DT (R140). -/
  | ldVxDt (x : Reg)
  /-- `Fx0A` LD Vx, K (R161). -/
  | ldVxK (x : Reg)
  /-- `Fx15` LD DT, Vx (R141). -/
  | ldDtVx (x : Reg)
  /-- `Fx18` LD ST, Vx (R142). -/
  | ldStVx (x : Reg)
  /-- `Fx1E` ADD I, Vx (R121). -/
  | addIVx (x : Reg)
  /-- `Fx29` LD F, Vx (R122). -/
  | ldFVx (x : Reg)
  /-- `Fx33` LD B, Vx (R123). -/
  | ldBVx (x : Reg)
  /-- `Fx55` LD [I], Vx (R124). -/
  | ldMiVx (x : Reg)
  /-- `Fx65` LD Vx, [I] (R125). -/
  | ldVxMi (x : Reg)
  deriving DecidableEq, Repr

end Sys2Proof
end

