-- ==== Sys2Proof/Decode.lean ====
section
/-! DEFINITION. The decoder, a table of the 34 rows of the opcode map (30_encoding.md R64, R65) and its
lookup, total on every byte list (R67); then the encoder, written from the patterns nibble by nibble. -/

namespace Sys2Proof

/-- Why a byte list gives no instruction. -/
inductive DecodeError where
  /-- The word matches no row: `Unsupported(w)` (R66, R67). -/
  | unsupportedOpcode (w : Word)
  /-- Fewer than two bytes are there (R60). -/
  | truncated
  deriving DecidableEq, Repr

/-! ## Fields (R61) -/

/-- `family`, nibble 1, `w[15:12]` (R61). -/
def familyOf (w : Word) : BitVec 4 := w.extractLsb' 12 4

/-- `x`, nibble 2, `w[11:8]` (R61). -/
def fieldX (w : Word) : Reg := (w.extractLsb' 8 4).toFin

/-- `y`, nibble 3, `w[7:4]` (R61). -/
def fieldY (w : Word) : Reg := (w.extractLsb' 4 4).toFin

/-- `n`, nibble 4, `w[3:0]` (R61). -/
def fieldN (w : Word) : Fin 16 := (w.extractLsb' 0 4).toFin

/-- `nn`, the bottom byte, `w[7:0]` (R61). -/
def fieldNn (w : Word) : Byte := w.extractLsb' 0 8

/-- `nnn`, the bottom 12 bits, `w[11:0]` (R61). -/
def fieldNnn (w : Word) : Imm12 := w.extractLsb' 0 12

/-! ## The opcode map (R65) -/

/-- A row of the opcode map: a word selects it when `(w & mask) = value` (R64). -/
structure OpRow where
  mask : Word
  value : Word
  build : Word → Instr

/-- Whether a word selects a row (R64). -/
def OpRow.selects (r : OpRow) (w : Word) : Bool := w &&& r.mask == r.value

/-- Rows 1 to 9: families 0 to 7 (R65). -/
def rowsFlow : List OpRow :=
  [ ⟨0xFFFF, 0x00E0, fun _ => .cls⟩,
    ⟨0xFFFF, 0x00EE, fun _ => .ret⟩,
    ⟨0xF000, 0x1000, fun w => .jp (fieldNnn w)⟩,
    ⟨0xF000, 0x2000, fun w => .call (fieldNnn w)⟩,
    ⟨0xF000, 0x3000, fun w => .seVxNn (fieldX w) (fieldNn w)⟩,
    ⟨0xF000, 0x4000, fun w => .sneVxNn (fieldX w) (fieldNn w)⟩,
    ⟨0xF00F, 0x5000, fun w => .seVxVy (fieldX w) (fieldY w)⟩,
    ⟨0xF000, 0x6000, fun w => .ldVxNn (fieldX w) (fieldNn w)⟩,
    ⟨0xF000, 0x7000, fun w => .addVxNn (fieldX w) (fieldNn w)⟩ ]

/-- Rows 10 to 19: families 8 and 9 (R65). -/
def rowsAlu : List OpRow :=
  [ ⟨0xF00F, 0x8000, fun w => .ldVxVy (fieldX w) (fieldY w)⟩,
    ⟨0xF00F, 0x8001, fun w => .or (fieldX w) (fieldY w)⟩,
    ⟨0xF00F, 0x8002, fun w => .and (fieldX w) (fieldY w)⟩,
    ⟨0xF00F, 0x8003, fun w => .xor (fieldX w) (fieldY w)⟩,
    ⟨0xF00F, 0x8004, fun w => .addVxVy (fieldX w) (fieldY w)⟩,
    ⟨0xF00F, 0x8005, fun w => .sub (fieldX w) (fieldY w)⟩,
    ⟨0xF00F, 0x8006, fun w => .shr (fieldX w) (fieldY w)⟩,
    ⟨0xF00F, 0x8007, fun w => .subn (fieldX w) (fieldY w)⟩,
    ⟨0xF00F, 0x800E, fun w => .shl (fieldX w) (fieldY w)⟩,
    ⟨0xF00F, 0x9000, fun w => .sneVxVy (fieldX w) (fieldY w)⟩ ]

/-- Rows 20 to 25: families A to E (R65). -/
def rowsIndexDraw : List OpRow :=
  [ ⟨0xF000, 0xA000, fun w => .ldINnn (fieldNnn w)⟩,
    ⟨0xF000, 0xB000, fun w => .jpV0 (fieldNnn w)⟩,
    ⟨0xF000, 0xC000, fun w => .rnd (fieldX w) (fieldNn w)⟩,
    ⟨0xF000, 0xD000, fun w => .drw (fieldX w) (fieldY w) (fieldN w)⟩,
    ⟨0xF0FF, 0xE09E, fun w => .skp (fieldX w)⟩,
    ⟨0xF0FF, 0xE0A1, fun w => .sknp (fieldX w)⟩ ]

/-- Rows 26 to 34: family F (R65). -/
def rowsMisc : List OpRow :=
  [ ⟨0xF0FF, 0xF007, fun w => .ldVxDt (fieldX w)⟩,
    ⟨0xF0FF, 0xF00A, fun w => .ldVxK (fieldX w)⟩,
    ⟨0xF0FF, 0xF015, fun w => .ldDtVx (fieldX w)⟩,
    ⟨0xF0FF, 0xF018, fun w => .ldStVx (fieldX w)⟩,
    ⟨0xF0FF, 0xF01E, fun w => .addIVx (fieldX w)⟩,
    ⟨0xF0FF, 0xF029, fun w => .ldFVx (fieldX w)⟩,
    ⟨0xF0FF, 0xF033, fun w => .ldBVx (fieldX w)⟩,
    ⟨0xF0FF, 0xF055, fun w => .ldMiVx (fieldX w)⟩,
    ⟨0xF0FF, 0xF065, fun w => .ldVxMi (fieldX w)⟩ ]

/-- The complete map, 34 rows (R65). -/
def opTable : List OpRow := rowsFlow ++ rowsAlu ++ rowsIndexDraw ++ rowsMisc

/-! ## Decoding -/

/-- `Decode(w)`: the instruction of the row the word selects, or `Unsupported(w)` (R64, R66, R67). -/
def decodeWord (w : Word) : Except DecodeError Instr :=
  match opTable.find? (fun r => r.selects w) with
  | some r => .ok (r.build w)
  | none => .error (.unsupportedOpcode w)

/-- The word two bytes make: big-endian, the high byte first (R46, R60). -/
def composeWord (hi lo : Byte) : Word := hi ++ lo

/-- The instruction at the head of a byte list, with the bytes after it (R60, R67). -/
def decode : List Byte → Except DecodeError (Instr × List Byte)
  | hi :: lo :: rest =>
    match decodeWord (composeWord hi lo) with
    | .ok i => .ok (i, rest)
    | .error e => .error e
  | _ => .error .truncated

/-- The bytes of a word as memory holds them, the high byte at the lower address (R46). -/
def wordBytes (w : Word) : List Byte := [w.extractLsb' 8 8, w.extractLsb' 0 8]

/-- What the decoder reads from a word numbered as the opcode table numbers it; every instruction is one
16-bit word, and bits from `nbits` up are 0 (R60). -/
def decodeTableWord (nbits w : Nat) : Option Instr :=
  match decode (wordBytes (BitVec.ofNat 16 (w % 2 ^ nbits))) with
  | .ok (i, _) => some i
  | .error _ => none

/-! ## Encoding -/

/-- A 4-bit operand as the nibble it fills (R61). -/
def nibble (k : Fin 16) : BitVec 4 := BitVec.ofFin k

/-- Format NNN: family, nnn (R63). -/
def formNnn (family : BitVec 4) (nnn : Imm12) : Word := family ++ nnn

/-- Format XNN: family, x, nn (R63); format XKK is this with a fixed low byte. -/
def formXnn (family : BitVec 4) (x : Reg) (nn : Byte) : Word := family ++ nibble x ++ nn

/-- Format XYN: family, x, y, n (R63). -/
def formXyn (family : BitVec 4) (x y : Reg) (n : BitVec 4) : Word := family ++ nibble x ++ nibble y ++ n

/-- The word of an instruction, from its pattern in the opcode map (R63, R65). -/
def encode : Instr → Word
  | .cls => 0x00E0
  | .ret => 0x00EE
  | .jp nnn => formNnn 0x1 nnn
  | .call nnn => formNnn 0x2 nnn
  | .seVxNn x nn => formXnn 0x3 x nn
  | .sneVxNn x nn => formXnn 0x4 x nn
  | .seVxVy x y => formXyn 0x5 x y 0x0
  | .ldVxNn x nn => formXnn 0x6 x nn
  | .addVxNn x nn => formXnn 0x7 x nn
  | .ldVxVy x y => formXyn 0x8 x y 0x0
  | .or x y => formXyn 0x8 x y 0x1
  | .and x y => formXyn 0x8 x y 0x2
  | .xor x y => formXyn 0x8 x y 0x3
  | .addVxVy x y => formXyn 0x8 x y 0x4
  | .sub x y => formXyn 0x8 x y 0x5
  | .shr x y => formXyn 0x8 x y 0x6
  | .subn x y => formXyn 0x8 x y 0x7
  | .shl x y => formXyn 0x8 x y 0xE
  | .sneVxVy x y => formXyn 0x9 x y 0x0
  | .ldINnn nnn => formNnn 0xA nnn
  | .jpV0 nnn => formNnn 0xB nnn
  | .rnd x nn => formXnn 0xC x nn
  | .drw x y n => formXyn 0xD x y (nibble n)
  | .skp x => formXnn 0xE x 0x9E
  | .sknp x => formXnn 0xE x 0xA1
  | .ldVxDt x => formXnn 0xF x 0x07
  | .ldVxK x => formXnn 0xF x 0x0A
  | .ldDtVx x => formXnn 0xF x 0x15
  | .ldStVx x => formXnn 0xF x 0x18
  | .addIVx x => formXnn 0xF x 0x1E
  | .ldFVx x => formXnn 0xF x 0x29
  | .ldBVx x => formXnn 0xF x 0x33
  | .ldMiVx x => formXnn 0xF x 0x55
  | .ldVxMi x => formXnn 0xF x 0x65

end Sys2Proof
end

