-- ==== Sys2Proof/Config.lean ====
section
/-! DEFINITION. What an implementation fixes (00_scope.md R4), the font table (20_memory.md R42), the
inputs the outside world can give, and the free values: constants with no body, about which nothing can
be proved. -/

namespace Sys2Proof.Config

/-- `MEM_SIZE`: the valid addresses are 0 to 4095 (R40). -/
def memSize : Nat := 4096

/-- The highest valid address (R40). -/
def maxAddr : Nat := 0xFFF

/-- `PROG_BASE`: where a program image is loaded (R55). -/
def progBase : Nat := 0x200

/-- `PROG_MAX`: the largest program image in bytes (R55). -/
def progMax : Nat := 3584

/-- The reset value of pc (R13, R201). -/
def resetPc : Word := 0x200#16

/-- `FONT_BASE`: where the font table stands (R4, R41). -/
def fontBase : Nat := 0

/-- `FONT[0..4]`, glyph 0, fixed by the source (R42). -/
def glyph0 : List Byte := [0xF0, 0x90, 0x90, 0x90, 0xF0]

/-- Glyphs 1 to 3 of the conventional font (R42; log 4, PRESUMED). -/
def glyphs1 : List Byte :=
  [0x20, 0x60, 0x20, 0x20, 0x70, 0xF0, 0x10, 0xF0, 0x80, 0xF0, 0xF0, 0x10, 0xF0, 0x10, 0xF0]

/-- Glyphs 4 to 7 (R42; log 4, PRESUMED). -/
def glyphs4 : List Byte :=
  [0x90, 0x90, 0xF0, 0x10, 0x10, 0xF0, 0x80, 0xF0, 0x10, 0xF0,
   0xF0, 0x80, 0xF0, 0x90, 0xF0, 0xF0, 0x10, 0x20, 0x40, 0x40]

/-- Glyphs 8 to B (R42; log 4, PRESUMED). -/
def glyphs8 : List Byte :=
  [0xF0, 0x90, 0xF0, 0x90, 0xF0, 0xF0, 0x90, 0xF0, 0x10, 0xF0,
   0xF0, 0x90, 0xF0, 0x90, 0x90, 0xE0, 0x90, 0xE0, 0x90, 0xE0]

/-- Glyphs C to F (R42; log 4, PRESUMED). -/
def glyphsC : List Byte :=
  [0xF0, 0x80, 0x80, 0x80, 0xF0, 0xE0, 0x90, 0x90, 0x90, 0xE0,
   0xF0, 0x80, 0xF0, 0x80, 0xF0, 0xF0, 0x80, 0xF0, 0x80, 0x80]

/-- The default of the parameter `FONT[5..79]`, 75 bytes (R4, R42; D16; log 4, PRESUMED). -/
def defaultGlyphs : Vector Byte 75 := ⟨(glyphs1 ++ glyphs4 ++ glyphs8 ++ glyphsC).toArray, rfl⟩

/-- `KEYWAIT_TIMER_POLICY`: whether timer ticks fire while Fx0A waits (R188; D10). -/
inductive KeyWaitPolicy where
  | frozen
  | running
  deriving DecidableEq, Repr

/-- The parameters a model takes as arguments (R4; log 1). `T` is the argument `TIME`, the type of time
readings; the other defaults the spec adopts stand at each field and in `defaultParams`. -/
structure Params (T : Type := Time) where
  /-- `STACK_DEPTH` (R14; D1). -/
  stackDepth : Nat := 16
  /-- `P_INSTR` (R185; D14). -/
  pInstr : T
  /-- `P_TIMER` (R185; D14). -/
  pTimer : T
  /-- `KEYWAIT_TIMER_POLICY` (R188; D10). -/
  keyWait : KeyWaitPolicy := .frozen
  /-- `FONT[5..79]`, the glyphs of digits 1 to F (R42; D16, log 4); construction puts them in memory. -/
  glyphs : Vector Byte 75 := defaultGlyphs
  /-- `FB_W`, the collaborator's framebuffer width (R156; PRESUMED, log 8). -/
  fbW : Nat := 64
  /-- `FB_H`, the collaborator's framebuffer height (R156; PRESUMED, log 8). -/
  fbH : Nat := 32
  deriving DecidableEq, Repr

/-- The spec's defaults (R4): the periods in nanoseconds (D14). -/
def defaultParams : Params := { pInstr := 2000000, pTimer := 16666000 }

/-- `FONT[0..79]`: 16 glyphs of 5 bytes, glyph d at address 5 * d (R41, R42). -/
def Params.fontTable {T : Type} (p : Params T) : List Byte := glyph0 ++ p.glyphs.toList

/-- What the outside world can do to a machine between two steps (R5, R28; log 6). -/
inductive Input (T : Type := Time) where
  /-- The collaborator delivers a key to a waiting `Fx0A` (R162). -/
  | keyDelivered (k : Key)
  /-- The user presses or releases a key (R163). -/
  | keyState (k : Key) (pressed : Bool)
  /-- The host calls `Invoke(now)`, `elapsed` after its last time reading (R184). -/
  | invoke (elapsed : T)
  deriving DecidableEq, Repr, Inhabited

/-- FREE VALUE (log 2): the byte the generator seeded with `seed` gives on its draw number `draw`
(from 0); the source gives no algorithm (R144; U8). -/
opaque rngByte (seed draw : Nat) : Byte

/-- FREE VALUE (log 9): the collaborator's answers to `is_key_pressed` for a key above 15, the argument
numbering the polls (R153; U6). -/
opaque freeKeyAnswer (poll : Nat) : Bool

/-- FREE VALUE (log 6): what the outside world does next when State queues no input (R187, R208; U9). -/
opaque freeInput {T : Type} (n : Nat) : Input T

end Sys2Proof.Config
end

