-- ==== Sys2Proof/Machine/State.lean ====
section
/-! DEFINITION. Everything the machine holds (10_state.md), the environment it is closed with
(44_display_keypad.md R156), the reasons a step can stop, and the state after reset (R31). -/

namespace Sys2Proof.Machine

/-- The fatal faults of the spec (60_exceptions.md R170), used as the cause in the FAULT record (R22).
Fault entry gives a NEXT state (R176; log 11), so no step answers `Outcome.fault`: safe. -/
inductive Fault where
  /-- Raised by `2nnn` on a full stack (R16, R173), as a next state: safe. -/
  | stackOverflow
  /-- Raised by `00EE` on an empty stack (R17, R174), as a next state: safe. -/
  | stackUnderflow
  /-- Raised by the fetch, `Fx33`, `Fx55`, `Fx65`, `Dxyn` and `Fx1E` (R45, R175), as a next state: safe. -/
  | memoryFault
  deriving DecidableEq, Repr

/-- Why a step has no meaning. -/
inductive Refusal where
  /-- Raised by `exec` for an instruction that has no meaning yet (none is left): safe. -/
  | notModelled (mnemonic : String)
  deriving DecidableEq, Repr

/-- The generator's state, `RNG_STATE`: its seed and how many bytes it has drawn (R20, R144; log 2). -/
structure Rng where
  seed : Nat
  draws : Nat
  deriving DecidableEq, Repr

/-- Memory: (address, byte) pairs in one canonical form (log 5); what an unlisted address reads as is
`Memory.initialByte`. -/
abbrev Memory := List Host.Cell

/-- The record a fault leaves: cause, address of the instruction, its word if it was fetched, and the
offending address for a `MemoryFault` (R22, R173 to R175). -/
structure FaultRecord where
  cause : Fault
  pc : Word
  word : Option Word
  addr : Option Nat
  deriving DecidableEq, Repr

/-- The Machine State a fault report shows (R176; 00_scope.md R9: memory, V0..VF, I, PC, stack, SP, DT,
ST, PRNG). -/
structure Snapshot where
  mem : Memory
  v : Vector Byte 16
  i : Word
  pc : Word
  stack : List Word
  sp : Nat
  dt : Byte
  st : Byte
  rng : Rng
  deriving DecidableEq, Repr

/-- What the core gives out: the calls to the collaborator with their answers, the diagnostic and the
fault report (R6; log 10). -/
inductive Event where
  /-- `clear()` (R151). -/
  | clear
  /-- `set_pixel(x, y, value)` and its answer (R152). -/
  | setPixel (x y : Nat) (value answer : Bool)
  /-- `is_key_pressed(key)` and its answer (R153). -/
  | isKeyPressed (key : Byte) (answer : Bool)
  /-- `next_key()`, the request (R154). -/
  | nextKey
  /-- `signal_audio()` (R155). -/
  | signalAudio
  /-- `diag(UnsupportedOpcode, w, pc)` (R91, R172). -/
  | diagUnsupportedOpcode (word pc : Word)
  /-- The fault report: the record and a snapshot of the Machine State (R176). -/
  | faultReport (record : FaultRecord) (snapshot : Snapshot)
  deriving DecidableEq, Repr

/-- The Display/Input collaborator, by its reference model (R156; log 8). -/
structure Collab where
  /-- `fb[0..FB_H-1][0..FB_W-1]`: rows of pixels. -/
  fb : List (List Bool)
  /-- `keys[0..15]`: whether each logical key is pressed. -/
  keys : Vector Bool 16
  /-- How many audio signals it was given. -/
  audio : Nat
  deriving DecidableEq, Repr

/-- The whole state: the core's (R10 to R24), its parameters (R4), its environment, and the model's own
fields (INVENTORY.md). -/
structure State (T : Type := Time) where
  /-- `V[0]` to `V[15]` (R10). -/
  v : Vector Byte 16
  /-- `I` (R12). -/
  i : Word
  /-- `pc` (R13). -/
  pc : Word
  /-- `stack[0 .. STACK_DEPTH-1]` (R14). -/
  stack : List Word
  /-- `sp`, the number of return addresses held (R15). -/
  sp : Nat
  /-- `DT` (R18). -/
  dt : Byte
  /-- `ST` (R19). -/
  st : Byte
  /-- `RNG` (R20). -/
  rng : Rng
  /-- `MEM` (R21). -/
  mem : Memory
  /-- `FAULT` (R22). -/
  fault : Option FaultRecord
  /-- `WAIT` (R23). -/
  wait : Option Reg
  /-- `T_INSTR` (R24). -/
  tInstr : T
  /-- `T_TIMER` (R24). -/
  tTimer : T
  /-- The implementation parameters (R4); no step writes them (log 1). -/
  params : Config.Params T
  /-- The collaborator (R156; log 8). -/
  coll : Collab
  /-- The host's latest time reading (R184; log 6). -/
  clock : T
  /-- The outside world's pending inputs, oldest first (R28; log 6). -/
  inputs : List (Config.Input T)
  /-- How many free inputs have been drawn (log 6). -/
  envCount : Nat
  /-- How many free key answers have been drawn (log 9). -/
  keyPolls : Nat
  /-- The outputs so far, oldest first (R6; log 10). -/
  out : List Event
  deriving DecidableEq, Repr

/-- What one instruction or one step answers. -/
abbrev Result (T : Type := Time) := Host.Outcome (State T) Fault Refusal

/-- The machine right after `Construct(SEED, PROG, t0)` (R31, R200) with the default parameters, SEED 0,
the empty program and t0 = 0 (log 3). -/
def State.reset : State where
  v := Vector.replicate 16 0
  i := 0
  pc := Config.resetPc
  stack := List.replicate Config.defaultParams.stackDepth 0
  sp := 0
  dt := 0
  st := 0
  rng := ⟨0, 0⟩
  mem := []
  fault := none
  wait := none
  tInstr := 0
  tTimer := 0
  params := Config.defaultParams
  coll := ⟨List.replicate Config.defaultParams.fbH (List.replicate Config.defaultParams.fbW false),
    Vector.replicate 16 false, 0⟩
  clock := 0
  inputs := []
  envCount := 0
  keyPolls := 0
  out := []

end Sys2Proof.Machine
end

