-- ==== Sys2Proof/Machine/Memory.lean ====
section
/-! DEFINITION. The 4096-byte memory (20_memory.md R40 to R45): what it holds at construction, its
canonical form, reading and writing one byte and a run of bytes. -/

namespace Sys2Proof.Machine

/-- What an address reads as when the memory lists nothing for it: the default font table at 0x000 to
0x04F, zero elsewhere (R31, R41, R42; log 5). A machine constructed with other glyphs lists theirs. -/
def Memory.initialByte (a : Nat) : Byte := Config.defaultParams.fontTable.getD a 0

/-- The canonical form (log 5): addresses strictly rising and inside memory, no entry equal to what the
unlisted address reads as. -/
abbrev Memory.wf (m : Memory) : Prop :=
  m.Pairwise (fun p q => p.1 < q.1) ∧
    ∀ c ∈ m, c.1 < Config.memSize ∧ c.2 ≠ Memory.initialByte c.1

/-- `MEM[a]` (R43). -/
def Memory.byteAt : Memory → Nat → Byte
  | [], a => Memory.initialByte a
  | (k, b) :: m, a => if a = k then b else Memory.byteAt m a

/-- The cell for byte `b` at `a`, if the canonical form lists one. -/
def Memory.cell (a : Nat) (b : Byte) : Memory :=
  if b = Memory.initialByte a then [] else [(a, b)]

/-- `MEM[a] <- b` (R44), keeping the canonical form. -/
def Memory.write : Memory → Nat → Byte → Memory
  | [], a, b => Memory.cell a b
  | (k, c) :: m, a, b =>
    if a < k then Memory.cell a b ++ (k, c) :: m
    else if a = k then Memory.cell a b ++ m
    else (k, c) :: Memory.write m a b

/-- Bytes written to `base`, `base + 1`, ... in ascending order (R48). -/
def Memory.writeBytes : Memory → Nat → List Byte → Memory
  | m, _, [] => m
  | m, base, b :: bs => Memory.writeBytes (Memory.write m base b) (base + 1) bs

/-- The `n` bytes at `base`, `base + 1`, ... in ascending order (R48). -/
def Memory.readBytes : Memory → Nat → Nat → List Byte
  | _, _, 0 => []
  | m, base, n + 1 => Memory.byteAt m base :: Memory.readBytes m (base + 1) n

/-- `MemRead(a, 1)`: the byte, or none for the `MemoryFault` of an address above 0xFFF (R43). -/
def Memory.read (m : Memory) (a : Nat) : Option Byte :=
  if Config.maxAddr < a then none else some (Memory.byteAt m a)

/-- The range check made before the first of `len` accesses from `base` (R45, R126): none if every
address lies in memory, else the lowest address of the range above 0xFFF. -/
def Memory.rangeFault (base len : Nat) : Option Nat :=
  if 0 < len ∧ Config.maxAddr < base + len - 1 then some (max base Config.memSize) else none

end Sys2Proof.Machine
end

