-- ==== Sys2Proof/Machine/Ops.lean ====
section
/-! DEFINITION. The named operations over the state: registers, pc, the call stack, outputs, and taking
a fault. Each updates the fields it names and no other. -/

namespace Sys2Proof.Machine

variable {T : Type}

/-! ## Registers and control state -/

/-- `V[x]` (R8, R10). -/
def State.getV (s : State T) (x : Reg) : Byte := s.v[x]

/-- `V[x] <- b` (R8, R10). -/
def State.setV (s : State T) (x : Reg) (b : Byte) : State T := { s with v := s.v.set x b }

/-- `I <- w` (R12). -/
def State.setI (s : State T) (w : Word) : State T := { s with i := w }

/-- `pc <- w` (R13). -/
def State.setPc (s : State T) (w : Word) : State T := { s with pc := w }

/-- `DT <- b` (R18). -/
def State.setDt (s : State T) (b : Byte) : State T := { s with dt := b }

/-- `ST <- b` (R19). -/
def State.setSt (s : State T) (b : Byte) : State T := { s with st := b }

/-- `RNG <- g` (R20). -/
def State.setRng (s : State T) (g : Rng) : State T := { s with rng := g }

/-- The memory after an instruction's stores (R21). -/
def State.setMem (s : State T) (m : Memory) : State T := { s with mem := m }

/-- `WAIT <- w` (R23). -/
def State.setWait (s : State T) (w : Option Reg) : State T := { s with wait := w }

/-- `T_INSTR <- t` (R24). -/
def State.setTInstr (s : State T) (t : T) : State T := { s with tInstr := t }

/-- `T_TIMER <- t` (R24). -/
def State.setTTimer (s : State T) (t : T) : State T := { s with tTimer := t }

/-- `stack[k] <- w` together with the new stack pointer (R16, R17). -/
def State.setSlot (s : State T) (k : Nat) (w : Word) (sp : Nat) : State T :=
  { s with stack := s.stack.set k w, sp := sp }

/-- The collaborator after a call (R163). -/
def State.setColl (s : State T) (c : Collab) : State T := { s with coll := c }

/-- The count of free key answers drawn (log 9). -/
def State.setKeyPolls (s : State T) (n : Nat) : State T := { s with keyPolls := n }

/-- The host has read the time (R184). -/
def State.setClock (s : State T) (t : T) : State T := { s with clock := t }

/-- An output event (R6; log 10). -/
def State.emit (s : State T) (e : Event) : State T := { s with out := s.out ++ [e] }

/-! ## The program counter (40_flow.md R80 to R82) -/

/-- The default advance: `pc <- pc + 2` (R81). -/
def State.advance (s : State T) : State T := s.setPc (s.pc + 2)

/-- A taken skip: `pc <- pc + 4` (R82). -/
def State.skip (s : State T) : State T := s.setPc (s.pc + 4)

/-- A conditional skip: past the next instruction if the condition holds, else to it (R82). -/
def State.skipIf (s : State T) (c : Bool) : State T := if c then s.skip else s.advance

/-! ## The call stack (10_state.md R16, R17) -/

/-- `Push(v)`, or none for the `StackOverflow` of a full stack (R16). -/
def State.push (s : State T) (v : Word) : Option (State T) :=
  if s.sp = s.params.stackDepth then none else some (s.setSlot s.sp v (s.sp + 1))

/-- `Pop()`: the value and the state with the vacated slot cleared, or none for the `StackUnderflow` of
an empty stack (R17). -/
def State.pop (s : State T) : Option (Word × State T) :=
  if s.sp = 0 then none
  else some (s.stack.getD (s.sp - 1) 0, s.setSlot (s.sp - 1) 0 (s.sp - 1))

/-! ## Taking a fault (60_exceptions.md R176) -/

/-- The Machine State as a fault report shows it (R9, R176). -/
def State.snapshot (s : State T) : Snapshot :=
  ⟨s.mem, s.v, s.i, s.pc, s.stack, s.sp, s.dt, s.st, s.rng⟩

/-- The record of a fault taken in `s` (R173 to R175). -/
def State.faultRecord (s : State T) (c : Fault) (w : Option Word) (addr : Option Nat) : FaultRecord :=
  ⟨c, s.pc, w, addr⟩

/-- `FAULT <- r`, with the report (R176). -/
def State.setFault (s : State T) (r : FaultRecord) : State T :=
  { s with fault := some r, out := s.out ++ [.faultReport r s.snapshot] }

/-- `raise`, the one way a fault is taken (R176, R177): given the state the tick began in, so that every
write of the tick is discarded, it sets FAULT, emits the report, and the core is halted. There is no
handler and no return (R178). -/
def raise (c : Fault) (w : Option Word) (addr : Option Nat) (s : State T) : Result T :=
  .next (s.setFault (s.faultRecord c w addr))

/-- `raise` for a decoded instruction, whose word is its encoding (log 12). -/
def raiseIn (i : Instr) (c : Fault) (addr : Option Nat) (s : State T) : Result T :=
  raise c (some (encode i)) addr s

/-! ## Answers -/

/-- The same answer with its next state changed. -/
def onNext (f : State T → State T) : Result T → Result T
  | .next s => .next (f s)
  | .fault r => .fault r
  | .refused r => .refused r

end Sys2Proof.Machine
end

