-- ==== Sys2Proof/Machine/Flags.lean ====
section
/-! DEFINITION. The flag computations (41_alu.md R100 to R102, R111, R113): each gives a result and the
flag that goes to VF; the arithmetic is exact on naturals and narrowed at the end. -/

namespace Sys2Proof.Machine

variable {T : Type}

/-- A flag as VF holds it, exactly 0 or 1 (R11). -/
def flagByte (c : Bool) : Byte := if c then 1 else 0

/-- `wrapping_add(a, b)`: the sum modulo 256 and the carry (R100). -/
def wrappingAdd (a b : Byte) : Byte × Bool :=
  let sum := a.toNat + b.toNat
  (BitVec.ofNat 8 (sum % 256), decide (255 < sum))

/-- `wrapping_sub(a, b)`: the difference modulo 256 and "no borrow" (R101). -/
def wrappingSub (a b : Byte) : Byte × Bool :=
  let diff := if b.toNat ≤ a.toNat then a.toNat - b.toNat else a.toNat + 256 - b.toNat
  (BitVec.ofNat 8 diff, decide (b.toNat ≤ a.toNat))

/-- The right shift by one and the bit shifted out (R111). -/
def shiftRight (a : Byte) : Byte × Bool := (a >>> 1, a.getLsbD 0)

/-- The left shift by one and the bit shifted out (R113). -/
def shiftLeft (a : Byte) : Byte × Bool := (a <<< 1, a.getLsbD 7)

/-- The two writes of a flag-setting instruction: the result to `V[x]`, last the flag to VF (R102). -/
def State.setResultAndFlag (s : State T) (x : Reg) (r : Byte × Bool) : State T :=
  (s.setV x r.1).setV vF (flagByte r.2)

end Sys2Proof.Machine
end

