-- ==== Sys2Proof/Machine/Operands.lean ====
section
/-! DEFINITION. The operand forms: immediates (30_encoding.md R62), the one addressing mode
(42_index_memory.md R126), the run of registers V0..Vx, and the sprite rows of Dxyn. -/

namespace Sys2Proof.Machine

variable {T : Type}

/-- `nnn` zero-extended to 16 bits (R62). -/
def zextNnn (nnn : Imm12) : Word := nnn.zeroExtend 16

/-- A byte zero-extended to 16 bits (R62). -/
def zextByte (b : Byte) : Word := b.zeroExtend 16

/-- A logical key number as a byte, `zext_8(k)` (R162). -/
def keyByte (k : Key) : Byte := BitVec.ofNat 8 k.val

/-- The effective address `I + k`, an unbounded sum (R126). -/
def State.effAddr (s : State T) (k : Nat) : Nat := s.i.toNat + k

/-- The check of the bytes `I` to `I + len - 1`: the faulting address if one lies above 0xFFF (R126). -/
def State.accessFault (s : State T) (len : Nat) : Option Nat := Memory.rangeFault (s.effAddr 0) len

/-- The byte at an address (R43). -/
def State.byteAt (s : State T) (a : Nat) : Byte := s.mem.byteAt a

/-- The `len` bytes from `I` up (R126). -/
def State.bytesAtI (s : State T) (len : Nat) : List Byte := s.mem.readBytes (s.effAddr 0) len

/-- The memory after storing bytes from `I` up (R126). -/
def State.storeAtI (s : State T) (bs : List Byte) : State T := s.setMem (s.mem.writeBytes (s.effAddr 0) bs)

/-- The register numbers 0 to x, ascending (R124, R125). -/
def regsUpTo (x : Reg) : List Reg := (List.finRange 16).filter (fun k => k ≤ x)

/-- `V[0]` to `V[x]` (R124). -/
def State.valuesUpTo (s : State T) (x : Reg) : List Byte := (regsUpTo x).map s.getV

/-- `V[k] <- b` for each register number with its byte, in order (R125). -/
def State.loadRegs (s : State T) : List (Reg × Byte) → State T
  | [] => s
  | (k, b) :: rest => (s.setV k b).loadRegs rest

end Sys2Proof.Machine
end

