-- ==== Sys2Proof/Machine/Alu.lean ====
section
/-! DEFINITION. The 8-bit ALU (41_alu.md): loads, add, logic, subtract, shifts. -/

namespace Sys2Proof.Machine

variable {T : Type}

/-- `6xnn` (R103). -/
def execLdVxNn (x : Reg) (nn : Byte) (s : State T) : Result T := .next (s.setV x nn).advance

/-- `7xnn` (R104): the carry is discarded. -/
def execAddVxNn (x : Reg) (nn : Byte) (s : State T) : Result T :=
  .next (s.setV x (wrappingAdd (s.getV x) nn).1).advance

/-- `8xy0` (R105). -/
def execLdVxVy (x y : Reg) (s : State T) : Result T := .next (s.setV x (s.getV y)).advance

/-- `8xy1` (R106). -/
def execOr (x y : Reg) (s : State T) : Result T := .next (s.setV x (s.getV x ||| s.getV y)).advance

/-- `8xy2` (R107). -/
def execAnd (x y : Reg) (s : State T) : Result T := .next (s.setV x (s.getV x &&& s.getV y)).advance

/-- `8xy3` (R108). -/
def execXor (x y : Reg) (s : State T) : Result T := .next (s.setV x (s.getV x ^^^ s.getV y)).advance

/-- `8xy4` (R109). -/
def execAddVxVy (x y : Reg) (s : State T) : Result T :=
  .next (s.setResultAndFlag x (wrappingAdd (s.getV x) (s.getV y))).advance

/-- `8xy5` (R110). -/
def execSub (x y : Reg) (s : State T) : Result T :=
  .next (s.setResultAndFlag x (wrappingSub (s.getV x) (s.getV y))).advance

/-- `8xy7` (R112): the operands are reversed. -/
def execSubn (x y : Reg) (s : State T) : Result T :=
  .next (s.setResultAndFlag x (wrappingSub (s.getV y) (s.getV x))).advance

/-- `8xy6` (R111): `V[x]` only. -/
def execShr (x : Reg) (s : State T) : Result T :=
  .next (s.setResultAndFlag x (shiftRight (s.getV x))).advance

/-- `8xyE` (R113): `V[x]` only. -/
def execShl (x : Reg) (s : State T) : Result T :=
  .next (s.setResultAndFlag x (shiftLeft (s.getV x))).advance

end Sys2Proof.Machine
end

