-- ==== Sys2Proof/Machine/Collab.lean ====
section
/-! DEFINITION. The reference collaborator (44_display_keypad.md R151 to R156; log 8): each call changes
what the collaborator owns, answers, and is recorded as an output of the core. -/

namespace Sys2Proof.Machine

variable {T : Type}

/-- A blank framebuffer of the given size (R151, R156). -/
def blankFb (w h : Nat) : List (List Bool) := List.replicate h (List.replicate w false)

/-- The pixel in a row and a column; one outside the framebuffer is clear (log 16). -/
def pixelAt (fb : List (List Bool)) (row col : Nat) : Bool := (fb.getD row []).getD col false

/-- A pixel set to a value. -/
def putPixel (fb : List (List Bool)) (row col : Nat) (b : Bool) : List (List Bool) :=
  fb.set row ((fb.getD row []).set col b)

/-- `clear()`: every pixel becomes unset (R151). -/
def collClear (s : State T) : State T :=
  (s.setColl { s.coll with fb := blankFb s.params.fbW s.params.fbH }).emit .clear

/-- `set_pixel(x, y, value)`: coordinates wrap, the pixel is XORed with the value, and the answer says
whether it went from set to unset (R152). -/
def collSetPixel (x y : Nat) (value : Bool) (s : State T) : State T × Bool :=
  let col := x % s.params.fbW
  let row := y % s.params.fbH
  let old := pixelAt s.coll.fb row col
  let hit := old && value
  ((s.setColl { s.coll with fb := putPixel s.coll.fb row col (old ^^ value) }).emit
    (.setPixel x y value hit), hit)

/-- `is_key_pressed(key)`: the state of a logical key; above 15 the answer is free (R153; log 9). -/
def collIsKeyPressed (key : Byte) (s : State T) : State T × Bool :=
  if h : key.toNat < 16 then
    let p := s.coll.keys[key.toNat]
    (s.emit (.isKeyPressed key p), p)
  else
    let p := Config.freeKeyAnswer s.keyPolls
    ((s.setKeyPolls (s.keyPolls + 1)).emit (.isKeyPressed key p), p)

/-- `next_key()`, the request; the answer is the step `keyDelivered` (R154, R161). -/
def collNextKey (s : State T) : State T := s.emit .nextKey

/-- `signal_audio()` (R155, R156). -/
def collSignalAudio (s : State T) : State T :=
  (s.setColl { s.coll with audio := s.coll.audio + 1 }).emit .signalAudio

/-- The user changes a key between two calls (R163). -/
def userKey (k : Key) (pressed : Bool) (s : State T) : State T :=
  s.setColl { s.coll with keys := s.coll.keys.set k pressed }

/-- The coordinates of the set bits of one sprite row, columns ascending, bit 7 the leftmost (R158;
log 15). -/
def rowCells (vx y : Nat) (b : Byte) : List (Nat × Nat) :=
  ((List.range 8).filter (fun c => b.getLsbD (7 - c))).map (fun c => (vx + c, y))

/-- The coordinates of a sprite's set bits, rows ascending, unreduced (R158; log 15). -/
def spriteCells (vx : Nat) : Nat → List Byte → List (Nat × Nat)
  | _, [] => []
  | y, b :: bs => rowCells vx y b ++ spriteCells vx (y + 1) bs

/-- `set_pixel(x, y, true)` at each coordinate in order; whether any call reported a collision (R158). -/
def drawCells : List (Nat × Nat) → State T → State T × Bool
  | [], s => (s, false)
  | (x, y) :: cs, s =>
    let first := collSetPixel x y true s
    let rest := drawCells cs first.1
    (rest.1, first.2 || rest.2)

end Sys2Proof.Machine
end

