-- ==== Sys2Proof/Machine/Display.lean ====
section
/-! DEFINITION. The instructions that use the collaborator, and the completion of a key wait
(44_display_keypad.md). -/

namespace Sys2Proof.Machine

variable {T : Type}

/-- `00E0` (R157). -/
def execCls (s : State T) : Result T := .next (collClear s).advance

/-- `Dxyn` (R158): operands sampled, range checked, rows read, pixels toggled, last VF written. -/
def execDrw (x y : Reg) (n : Fin 16) (s : State T) : Result T :=
  match s.accessFault n.val with
  | some a => raiseIn (.drw x y n) .memoryFault (some a) s
  | none =>
    let cells := spriteCells (s.getV x).toNat (s.getV y).toNat (s.bytesAtI n.val)
    let drawn := drawCells cells s
    .next (drawn.1.setV vF (flagByte drawn.2)).advance

/-- `Ex9E` (R159): the whole byte is passed. -/
def execSkp (x : Reg) (s : State T) : Result T :=
  let poll := collIsKeyPressed (s.getV x) s
  .next (poll.1.skipIf poll.2)

/-- `ExA1` (R160). -/
def execSknp (x : Reg) (s : State T) : Result T :=
  let poll := collIsKeyPressed (s.getV x) s
  .next (poll.1.skipIf !poll.2)

/-- `Fx0A`, the request half: WAIT takes x and pc stays (R161; log 22). -/
def execLdVxK (x : Reg) (s : State T) : Result T := .next ((collNextKey s).setWait (some x))

/-- `KeyDelivered(k)`, the completing half (R162): enabled only while a wait is on and no fault is; a
delivery that is not enabled changes nothing (log 7). -/
def keyDelivered (k : Key) (s : State T) : State T :=
  match s.fault, s.wait with
  | none, some x => ((s.setV x (keyByte k)).advance).setWait none
  | _, _ => s

end Sys2Proof.Machine
end

