-- ==== Sys2Proof/Machine/Flow.lean ====
section
/-! DEFINITION. Control transfer, skips on registers, and the unsupported words (40_flow.md). -/

namespace Sys2Proof.Machine

variable {T : Type}

/-- `1nnn` (R83). -/
def execJp (nnn : Imm12) (s : State T) : Result T := .next (s.setPc (zextNnn nnn))

/-- `2nnn` (R84): the value pushed is the return address `pc + 2` (log 17). -/
def execCall (nnn : Imm12) (s : State T) : Result T :=
  match s.push (s.pc + 2) with
  | some t => .next (t.setPc (zextNnn nnn))
  | none => raiseIn (.call nnn) .stackOverflow none s

/-- `00EE` (R85). -/
def execRet (s : State T) : Result T :=
  match s.pop with
  | some (v, t) => .next (t.setPc v)
  | none => raiseIn .ret .stackUnderflow none s

/-- `Bnnn` (R86): the register is always V0, and the sum is not reduced modulo 4096. -/
def execJpV0 (nnn : Imm12) (s : State T) : Result T :=
  .next (s.setPc (zextByte (s.getV 0) + zextNnn nnn))

/-- `3xnn` (R87). -/
def execSeVxNn (x : Reg) (nn : Byte) (s : State T) : Result T := .next (s.skipIf (s.getV x == nn))

/-- `4xnn` (R88). -/
def execSneVxNn (x : Reg) (nn : Byte) (s : State T) : Result T := .next (s.skipIf (s.getV x != nn))

/-- `5xy0` (R89). -/
def execSeVxVy (x y : Reg) (s : State T) : Result T := .next (s.skipIf (s.getV x == s.getV y))

/-- `9xy0` (R90). -/
def execSneVxVy (x y : Reg) (s : State T) : Result T := .next (s.skipIf (s.getV x != s.getV y))

/-- `Unsupported(w)` (R91): one diagnostic, then the default advance. -/
def execUnsupported (w : Word) (s : State T) : Result T :=
  .next (s.emit (.diagUnsupportedOpcode w s.pc)).advance

end Sys2Proof.Machine
end

