-- ==== Sys2Proof/Machine/Index.lean ====
section
/-! DEFINITION. The index register and the memory-indexed instructions (42_index_memory.md). -/

namespace Sys2Proof.Machine

variable {T : Type}

/-- `Annn` (R120). -/
def execLdINnn (nnn : Imm12) (s : State T) : Result T := .next (s.setI (zextNnn nnn)).advance

/-- `Fx1E` (R121): a sum above 0xFFFF faults, with the sum as the address (log 19). -/
def execAddIVx (x : Reg) (s : State T) : Result T :=
  let sum := s.i.toNat + (s.getV x).toNat
  if 0xFFFF < sum then raiseIn (.addIVx x) .memoryFault (some sum) s
  else .next (s.setI (BitVec.ofNat 16 sum)).advance

/-- `Fx29` (R122): the whole byte is multiplied. -/
def execLdFVx (x : Reg) (s : State T) : Result T := .next (s.setI (zextByte (s.getV x) * 5)).advance

/-- The hundreds, tens and ones of a byte (R123). -/
def decimalDigits (b : Byte) : List Byte :=
  [BitVec.ofNat 8 (b.toNat / 100), BitVec.ofNat 8 (b.toNat / 10 % 10), BitVec.ofNat 8 (b.toNat % 10)]

/-- `Fx33` (R123). -/
def execLdBVx (x : Reg) (s : State T) : Result T :=
  match s.accessFault 3 with
  | some a => raiseIn (.ldBVx x) .memoryFault (some a) s
  | none => .next (s.storeAtI (decimalDigits (s.getV x))).advance

/-- `Fx55` (R124). -/
def execLdMiVx (x : Reg) (s : State T) : Result T :=
  match s.accessFault (x.val + 1) with
  | some a => raiseIn (.ldMiVx x) .memoryFault (some a) s
  | none => .next (s.storeAtI (s.valuesUpTo x)).advance

/-- `Fx65` (R125). -/
def execLdVxMi (x : Reg) (s : State T) : Result T :=
  match s.accessFault (x.val + 1) with
  | some a => raiseIn (.ldVxMi x) .memoryFault (some a) s
  | none => .next (s.loadRegs ((regsUpTo x).zip (s.bytesAtI (x.val + 1)))).advance

end Sys2Proof.Machine
end

