-- ==== Sys2Proof/Machine/Timers.lean ====
section
/-! DEFINITION. Timer access and the random instruction (43_timers_random.md). -/

namespace Sys2Proof.Machine

variable {T : Type}

/-- `Fx07` (R140). -/
def execLdVxDt (x : Reg) (s : State T) : Result T := .next (s.setV x s.dt).advance

/-- `Fx15` (R141). -/
def execLdDtVx (x : Reg) (s : State T) : Result T := .next (s.setDt (s.getV x)).advance

/-- `Fx18` (R142): no audio request by the instruction itself. -/
def execLdStVx (x : Reg) (s : State T) : Result T := .next (s.setSt (s.getV x)).advance

/-- `rng_seed` (R144; log 2). -/
def rngSeed (seed : Nat) : Rng := ⟨seed, 0⟩

/-- `rng_step`: a byte, a free value of the seed and the draw number, and the next state (R144; log 2). -/
def rngStep (g : Rng) : Byte × Rng := (Config.rngByte g.seed g.draws, ⟨g.seed, g.draws + 1⟩)

/-- `Cxnn` (R143): one draw, whatever the mask. -/
def execRnd (x : Reg) (nn : Byte) (s : State T) : Result T :=
  let r := rngStep s.rng
  .next ((s.setRng r.2).setV x (r.1 &&& nn)).advance

end Sys2Proof.Machine
end

