-- ==== Sys2Proof/Machine/Load.lean ====
section
/-! DEFINITION. Construction and program load (70_reset_and_hazards.md R200 to R203), and placing one
instruction where the next step fetches it. -/

namespace Sys2Proof.Machine

variable {T : Type}

/-- Why nothing is constructed (60_exceptions.md R171). -/
inductive LoadError where
  /-- The image is longer than 3584 bytes. -/
  | imageTooLong
  deriving DecidableEq, Repr

/-- `Construct` before the program is copied (R31, R200), for any `TIME`, parameters, seed and time: memory holds
the font table of the parameters and zero elsewhere. -/
def State.fresh (p : Config.Params T) (seed : Nat) (t0 : T) : State T :=
  { v := State.reset.v
    i := State.reset.i
    pc := State.reset.pc
    stack := List.replicate p.stackDepth 0
    sp := State.reset.sp
    dt := State.reset.dt
    st := State.reset.st
    rng := rngSeed seed
    mem := Memory.writeBytes [] Config.fontBase p.fontTable
    fault := State.reset.fault
    wait := State.reset.wait
    tInstr := t0
    tTimer := t0
    params := p
    coll := { State.reset.coll with fb := blankFb p.fbW p.fbH }
    clock := t0
    inputs := []
    envCount := State.reset.envCount
    keyPolls := State.reset.keyPolls
    out := State.reset.out }

/-- Program load: `MEM[0x200 + k] <- PROG[k]`, or `LoadError` and nothing done (R55, R171, R202). -/
def State.load (prog : List Byte) (s : State T) : Except LoadError (State T) :=
  if prog.length ≤ Config.progMax then .ok (s.setMem (s.mem.writeBytes Config.progBase prog))
  else .error .imageTooLong

/-- `Construct(SEED, PROG, t0)` (R200). -/
def State.construct (p : Config.Params T) (seed : Nat) (prog : List Byte) (t0 : T) :
    Except LoadError (State T) :=
  (State.fresh p seed t0).load prog

/-- The address the next fetch uses: pc, or the program base where pc cannot be fetched from (log 14). -/
def State.fetchPc (s : State T) : Word := if s.pc.toNat + 1 ≤ Config.maxAddr then s.pc else Config.resetPc

/-- The state whose next step runs the instruction tick on the given word (log 14): running, the word
stored at the fetch address, and an invocation queued just late enough for the instruction clock. -/
def State.placeWord [Add T] [Sub T] (s : State T) (w : Word) : State T :=
  { s with
    pc := s.fetchPc
    mem := s.mem.writeBytes s.fetchPc.toNat (wordBytes w)
    fault := none
    wait := none
    inputs := .invoke (s.tInstr + s.params.pInstr - s.clock) :: s.inputs }

end Sys2Proof.Machine
end

