-- ==== Sys2Proof/Machine/Execute.lean ====
section
/-! DEFINITION. `Execute(ins)` (40_flow.md R80) for any `TIME` (00_scope.md R4): the meaning of each
instruction. No instruction reads or writes a time (10_state.md R24), so none constrains the type. With
the default `TIME` it is `exec` (Dispatch.lean), arm for arm. The instruction tick calls it only in a
state with no fault and no wait (log 13). -/

namespace Sys2Proof.Machine

/-- `Execute(ins)` (R80). -/
def execute {T : Type} (i : Instr) (s : State T) : Result T :=
  match i with
  | .cls => execCls s
  | .ret => execRet s
  | .jp nnn => execJp nnn s
  | .call nnn => execCall nnn s
  | .seVxNn x nn => execSeVxNn x nn s
  | .sneVxNn x nn => execSneVxNn x nn s
  | .seVxVy x y => execSeVxVy x y s
  | .ldVxNn x nn => execLdVxNn x nn s
  | .addVxNn x nn => execAddVxNn x nn s
  | .ldVxVy x y => execLdVxVy x y s
  | .or x y => execOr x y s
  | .and x y => execAnd x y s
  | .xor x y => execXor x y s
  | .addVxVy x y => execAddVxVy x y s
  | .sub x y => execSub x y s
  | .shr x _ => execShr x s
  | .subn x y => execSubn x y s
  | .shl x _ => execShl x s
  | .sneVxVy x y => execSneVxVy x y s
  | .ldINnn nnn => execLdINnn nnn s
  | .jpV0 nnn => execJpV0 nnn s
  | .rnd x nn => execRnd x nn s
  | .drw x y n => execDrw x y n s
  | .skp x => execSkp x s
  | .sknp x => execSknp x s
  | .ldVxDt x => execLdVxDt x s
  | .ldVxK x => execLdVxK x s
  | .ldDtVx x => execLdDtVx x s
  | .ldStVx x => execLdStVx x s
  | .addIVx x => execAddIVx x s
  | .ldFVx x => execLdFVx x s
  | .ldBVx x => execLdBVx x s
  | .ldMiVx x => execLdMiVx x s
  | .ldVxMi x => execLdVxMi x s

end Sys2Proof.Machine
end

