-- ==== Sys2Proof/Machine/Scheduler.lean ====
section
/-! DEFINITION. The instruction tick (40_flow.md R80), the timer tick and the cycle scheduler
(60_exceptions.md R183, R184, R188), and what one input of the outside world does. -/

namespace Sys2Proof.Machine

variable {T : Type}

/-- The fetch: the word at pc, high byte first (R60), or the address of the byte that is not there. -/
def State.fetch (s : State T) : Except Nat Word :=
  match s.mem.read s.pc.toNat with
  | none => .error s.pc.toNat
  | some hi =>
    match s.mem.read (s.pc.toNat + 1) with
    | none => .error (s.pc.toNat + 1)
    | some lo => .ok (composeWord hi lo)

/-- Execute a fetched word: the instruction it decodes to, or the no-op of an unsupported word (R80,
R91). -/
def execWord (w : Word) (s : State T) : Result T :=
  match decodeWord w with
  | .ok i => execute i s
  | .error _ => execUnsupported w s

/-- `InstrTick()` (R80): fetch, decode and execute one instruction; a fetch fault has no word (R175). -/
def instrTick (s : State T) : Result T :=
  match s.fetch with
  | .error a => raise .memoryFault none (some a) s
  | .ok w => execWord w s

/-- A timer's next value: down by one, never below zero (R183). -/
def decayed (b : Byte) : Byte := if b = 0 then 0 else b - 1

/-- `TimerTick()` (R183): audio is signalled if ST was nonzero before the decrement. -/
def timerTick (s : State T) : State T :=
  let t := (s.setDt (decayed s.dt)).setSt (decayed s.st)
  if s.st = 0 then t else collSignalAudio t

/-- The input the outside world gives next: the oldest queued one, or a free one (log 6). -/
def State.nextInput (s : State T) : Config.Input T :=
  match s.inputs with
  | e :: _ => e
  | [] => Config.freeInput s.envCount

/-- The state with that input taken. -/
def State.takeInput (s : State T) : State T :=
  match s.inputs with
  | _ :: rest => { s with inputs := rest }
  | [] => { s with envCount := s.envCount + 1 }

/-! ## The clocks, for any `TIME` with an order and a subtraction (R4; D13)

A step also adds the elapsed time an input carries to the last reading, so that readings never go back as
long as no elapsed time is negative (log 6). -/

/-- "Elapsed": at least one period has gone by since a clock last fired (R184; D13, log 23). -/
abbrev periodOver [LE T] [Sub T] (now last period : T) : Prop := period ≤ now - last

variable [LE T] [DecidableLE T] [Sub T]

/-- The timer half of an invocation (R184, R188): `ran` says that this invocation ran an instruction. -/
def timerCheck (now : T) (ran : Bool) (s : State T) : State T :=
  if (s.wait = none ∨ ran = true ∨ s.params.keyWait = .running) ∧ periodOver now s.tTimer s.params.pTimer then
    (timerTick s).setTTimer now
  else s

/-- What follows the instruction tick in its invocation: nothing if it faulted, else the timestamp and
the timer half (R179, R184). -/
def afterInstr (now : T) (t : State T) : State T :=
  if t.fault.isSome then t else timerCheck now true (t.setTInstr now)

/-- `Invoke(now)` (R184; log 23). -/
def invoke (now : T) (s : State T) : Result T :=
  if s.fault.isSome then .next s
  else if s.wait = none ∧ periodOver now s.tInstr s.params.pInstr then onNext (afterInstr now) (instrTick s)
  else .next (timerCheck now false s)

variable [Add T]

/-- What one input does (R5): an invocation reads the time once (R184). -/
def deliver : Config.Input T → State T → Result T
  | .invoke elapsed, s => invoke (s.clock + elapsed) (s.setClock (s.clock + elapsed))
  | .keyDelivered k, s => .next (keyDelivered k s)
  | .keyState k pressed, s => .next (userKey k pressed s)

/-- One step of the machine: the next input is taken and acts; a halted core never changes (R176). -/
def stepInput (s : State T) : Result T :=
  if s.fault.isSome then .next s else deliver s.nextInput s.takeInput

end Sys2Proof.Machine
end

