-- ==== Sys2Proof/Machine/Step.lean ====
section
/-! DEFINITION. One step of the machine, and the state whose next step runs a given word. -/

namespace Sys2Proof.Machine

/-- One step: the outside world's next input acts on the machine (00_scope.md R5). -/
def step (s : State) : Host.Outcome State Fault Refusal := stepInput s

/-- `s` with an instruction, numbered as the opcode table numbers its bits, stored where the next step
fetches it, and that step being an invocation that runs it (log 14). -/
def State.withFetchWord (s : State) (nbits w : Nat) : State := s.placeWord (BitVec.ofNat 16 (w % 2 ^ nbits))

end Sys2Proof.Machine
end

