-- ==== Sys2Proof/WellFormed.lean ====
section
/-! DEFINITION. The checks on what comes from outside. An `Instr` needs none: its operand types hold
exactly what the encoding admits, "so no register field is ever out of range" (30_encoding.md R62), and
an ill-formed one cannot be written. What can be ill-formed is a program image and a choice of
parameters. -/

namespace Sys2Proof.WellFormed

/-- A program image fits the program region: at most 3584 bytes (20_memory.md R55). -/
def image (prog : List Byte) : Bool := prog.length ≤ Config.progMax

/-- The framebuffer has at least one column, so that a coordinate can wrap modulo its width (R152). -/
def fbWidth {T : Type} (p : Config.Params T) : Bool := 0 < p.fbW

/-- The framebuffer has at least one row (R152). -/
def fbHeight {T : Type} (p : Config.Params T) : Bool := 0 < p.fbH

/-- Every check on the parameters. -/
def params {T : Type} (p : Config.Params T) : Bool := fbWidth p && fbHeight p

end Sys2Proof.WellFormed
end

