-- ==== Sys2Proof/Safety.lean ====
section
/-! DEFINITION. The terms the claims use: the three conditions of the core (60_exceptions.md R192), the
invariant every step keeps (10_state.md R25), and what two states have in common. -/

namespace Sys2Proof.Machine

/-! ## The three conditions (R192) -/

/-- Running: no fault and no key wait. -/
def State.Running {T : Type} (s : State T) : Prop := s.fault = none ∧ s.wait = none

/-- Waiting for a key. -/
def State.Waiting {T : Type} (s : State T) : Prop := s.fault = none ∧ s.wait ≠ none

/-- Halted, never left (R178). -/
def State.Halted {T : Type} (s : State T) : Prop := s.fault ≠ none

/-! ## The invariant -/

/-- What holds of every state a constructed machine can reach: the memory's canonical form (log 5), the
bounds of R13, R15 and R85, cleared vacated slots (R17), clocks that never run backwards (R184), one
stop condition at a time (R192), and the framebuffer's shape (R156). -/
structure State.Inv (s : State) : Prop where
  memWf : s.mem.wf
  stackSize : s.stack.length = s.params.stackDepth
  spBound : s.sp ≤ s.params.stackDepth
  vacated : ∀ k, s.sp ≤ k → s.stack.getD k 0 = 0
  returns : ∀ k, k < s.sp → 2 ≤ (s.stack.getD k 0).toNat ∧ (s.stack.getD k 0).toNat ≤ 0x1000
  pcBound : s.pc.toNat ≤ 0x10FE
  waitPc : s.wait ≠ none → s.pc.toNat ≤ 0xFFE
  oneStop : s.wait ≠ none → s.fault = none
  instrPast : s.tInstr ≤ s.clock
  timerPast : s.tTimer ≤ s.clock
  fbRows : s.coll.fb.length = s.params.fbH
  fbCols : ∀ row ∈ s.coll.fb, row.length = s.params.fbW

/-! ## What two states have in common (frames) -/

/-- Every byte of memory reads the same. -/
def State.SameMemory (s t : State) : Prop := ∀ a, t.byteAt a = s.byteAt a

/-- The call stack and its pointer are the same. -/
def State.SameStack (s t : State) : Prop := t.stack = s.stack ∧ t.sp = s.sp

/-- DT and ST are the same. -/
def State.SameTimers (s t : State) : Prop := t.dt = s.dt ∧ t.st = s.st

/-- FAULT and WAIT are the same. -/
def State.SameControl (s t : State) : Prop := t.fault = s.fault ∧ t.wait = s.wait

/-- What no instruction writes (R24): the timestamps, the parameters, the clock and the inputs. -/
def State.SameEnvironment (s t : State) : Prop :=
  t.tInstr = s.tInstr ∧ t.tTimer = s.tTimer ∧ t.params = s.params ∧ t.clock = s.clock ∧
    t.inputs = s.inputs ∧ t.envCount = s.envCount

/-- No call was made to the collaborator and nothing was output. -/
def State.SameOutside (s t : State) : Prop := t.coll = s.coll ∧ t.out = s.out ∧ t.keyPolls = s.keyPolls

/-- The general registers and I are the same. -/
def State.SameRegs (s t : State) : Prop := (∀ r, t.getV r = s.getV r) ∧ t.i = s.i

/-- FAULT, WAIT, the generator and what no instruction writes are the same. -/
def State.SameSystem (s t : State) : Prop :=
  t.rng = s.rng ∧ s.SameControl t ∧ s.SameEnvironment t

/-- Everything but the general registers, I and pc is the same. -/
def State.SameButRegs (s t : State) : Prop :=
  s.SameMemory t ∧ s.SameStack t ∧ s.SameTimers t ∧ s.SameSystem t ∧ s.SameOutside t

/-- Everything but pc is the same. -/
def State.SameButPc (s t : State) : Prop := s.SameRegs t ∧ s.SameButRegs t

/-- Everything but `V[x]` and pc is the same. -/
def State.SameButReg (x : Reg) (s t : State) : Prop :=
  (∀ r, r ≠ x → t.getV r = s.getV r) ∧ t.i = s.i ∧ s.SameButRegs t

/-- Everything but `V[x]`, VF and pc is the same. -/
def State.SameButRegAndFlag (x : Reg) (s t : State) : Prop :=
  (∀ r, r ≠ x → r ≠ vF → t.getV r = s.getV r) ∧ t.i = s.i ∧ s.SameButRegs t

/-- Everything but I and pc is the same. -/
def State.SameButIndex (s t : State) : Prop := (∀ r, t.getV r = s.getV r) ∧ s.SameButRegs t

/-- Everything but memory and pc is the same. -/
def State.SameButMemory (s t : State) : Prop :=
  s.SameRegs t ∧ s.SameStack t ∧ s.SameTimers t ∧ s.SameSystem t ∧ s.SameOutside t

/-- Everything but the call stack, sp and pc is the same. -/
def State.SameButStack (s t : State) : Prop :=
  s.SameRegs t ∧ s.SameMemory t ∧ s.SameTimers t ∧ s.SameSystem t ∧ s.SameOutside t

/-- Everything but the collaborator, the outputs, the key polls and pc is the same. -/
def State.SameButOutside (s t : State) : Prop :=
  s.SameRegs t ∧ s.SameMemory t ∧ s.SameStack t ∧ s.SameTimers t ∧ s.SameSystem t

/-- The state is unchanged but for FAULT, which holds the given record, and the report that was emitted
(R176, R177). -/
def State.HaltedBy (s t : State) (r : FaultRecord) : Prop :=
  t = { s with fault := some r, out := s.out ++ [.faultReport r s.snapshot] }

/-- The coordinates of the calls `Dxyn` makes, in their order, read off R158: for each row r ascending and
each column c ascending whose bit 7 - c is set, the unreduced sums `V[x] + c` and `V[y] + r`. -/
def State.spriteCalls (s : State) (x y : Reg) (n : Nat) : List (Nat × Nat) :=
  (List.range n).flatMap fun r =>
    ((List.range 8).filter fun c => (s.byteAt (s.effAddr r)).getLsbD (7 - c)).map fun c =>
      ((s.getV x).toNat + c, (s.getV y).toNat + r)

/-- What `set_pixel(x, y, true)` answers for call number k of a run of calls: it is made on what the calls
before it left (R152, R163). -/
def State.callAnswer (s : State) (calls : List (Nat × Nat)) (k : Nat) : Bool :=
  let c := calls.getD k (0, 0)
  (collSetPixel c.1 c.2 true (drawCells (calls.take k) s).1).2

/-- A pixel the sprite of `Dxyn` covers: a set bit of one of its rows wraps onto it (R152, R158). -/
def State.Covers (s : State) (x y : Reg) (n row col : Nat) : Prop :=
  ∃ r c, r < n ∧ c < 8 ∧ (s.byteAt (s.effAddr r)).getLsbD (7 - c) = true ∧
    ((s.getV y).toNat + r) % s.params.fbH = row ∧ ((s.getV x).toNat + c) % s.params.fbW = col

/-- The framebuffer has the size the parameters give it, with at least one pixel (R156). -/
def State.FbShape (s : State) : Prop :=
  WellFormed.params s.params = true ∧ s.coll.fb.length = s.params.fbH ∧
    ∀ row ∈ s.coll.fb, row.length = s.params.fbW

/-- When a decoded instruction raises `MemoryFault`: points (c) to (f) of R175. -/
def RaisesMemoryFault (s : State) : Instr → Prop
  | .ldBVx _ => 0xFFF < s.i.toNat + 2
  | .ldMiVx x => 0xFFF < s.i.toNat + x.val
  | .ldVxMi x => 0xFFF < s.i.toNat + x.val
  | .drw _ _ n => 0 < n.val ∧ 0xFFF < s.i.toNat + n.val - 1
  | .addIVx x => 0xFFFF < s.i.toNat + (s.getV x).toNat
  | _ => False

/-! ## The unit of time -/

/-- An input with its time counted in a unit c times finer. -/
def scaleInput (c : Nat) : Config.Input → Config.Input
  | .invoke elapsed => .invoke (c * elapsed)
  | .keyDelivered k => .keyDelivered k
  | .keyState k pressed => .keyState k pressed

/-- The same state with every time in it, the periods among them, counted in a unit c times finer. -/
def State.scaleTime (c : Nat) (s : State) : State :=
  { s with
    tInstr := c * s.tInstr
    tTimer := c * s.tTimer
    clock := c * s.clock
    params := { s.params with pInstr := c * s.params.pInstr, pTimer := c * s.params.pTimer }
    inputs := s.inputs.map (scaleInput c) }

/-! ## Kinds of instructions -/

/-- The four that set pc directly (R81). -/
def isTransfer : Instr → Bool
  | .jp _ | .call _ | .ret | .jpV0 _ => true
  | _ => false

/-- The six skips (R82). -/
def isSkip : Instr → Bool
  | .seVxNn _ _ | .sneVxNn _ _ | .seVxVy _ _ | .sneVxVy _ _ | .skp _ | .sknp _ => true
  | _ => false

/-- The six that write VF as a side effect (R11). -/
def setsFlag : Instr → Bool
  | .addVxVy _ _ | .sub _ _ | .subn _ _ | .shr _ _ | .shl _ _ | .drw _ _ _ => true
  | _ => false

/-- Whether `r` is an ordinary destination register of the instruction (R11, R125). -/
def isDestination (r : Reg) : Instr → Bool
  | .ldVxNn x _ | .addVxNn x _ | .ldVxVy x _ | .or x _ | .and x _ | .xor x _ | .addVxVy x _
  | .sub x _ | .shr x _ | .subn x _ | .shl x _ | .rnd x _ | .ldVxDt x => r = x
  | .ldVxMi x => r ≤ x
  | _ => false

/-- The three that write I (R12). -/
def writesI : Instr → Bool
  | .ldINnn _ | .addIVx _ | .ldFVx _ => true
  | _ => false

/-- The two that store to memory (R48). -/
def storesMemory : Instr → Bool
  | .ldBVx _ | .ldMiVx _ => true
  | _ => false

/-- The five that call the collaborator (R150). -/
def callsCollaborator : Instr → Bool
  | .cls | .drw _ _ _ | .skp _ | .sknp _ | .ldVxK _ => true
  | _ => false

end Sys2Proof.Machine
end

