-- ==== Sys2Proof/Certificates/Slice0/Obligations.lean ====
section
/-! DEFINITION. The statements for the provers: what the rules of the spec say of this model. -/

open Sys2Proof Sys2Proof.Machine

/-! ## Encoding -/

/-- 30_encoding.md sections 3 to 5 (R63 to R65): encoding then decoding gives back every instruction, with
every operand at every value, and leaves the bytes after it. -/
def Obligations.DecodeOfEncodeIsIdentity : Prop :=
  ∀ (i : Instr) (rest : List Byte), decode (wordBytes (encode i) ++ rest) = .ok (i, rest)

/-- R67: every word is exactly one instruction with its fields, or `Unsupported(w)`. -/
def Obligations.EveryWordDecodesOrIsUnsupported : Prop :=
  ∀ w : Word,
    (∃ i, decodeWord w = .ok i ∧ encode i = w ∧ ∀ j, encode j = w → j = i) ∨
      (decodeWord w = .error (.unsupportedOpcode w) ∧ ∀ j, encode j ≠ w)

/-- The table of R66: which words are unsupported, family by family. -/
def Obligations.UnsupportedWordsAreThoseOfTheTable : Prop :=
  ∀ w : Word, decodeWord w = .error (.unsupportedOpcode w) ↔
    (familyOf w = 0x0 ∧ w ≠ 0x00E0 ∧ w ≠ 0x00EE) ∨
    (familyOf w = 0x5 ∧ fieldN w ≠ 0) ∨
    (familyOf w = 0x8 ∧ fieldN w ∈ [0x8, 0x9, 0xA, 0xB, 0xC, 0xD, 0xF]) ∨
    (familyOf w = 0x9 ∧ fieldN w ≠ 0) ∨
    (familyOf w = 0xE ∧ fieldNn w ∉ [0x9E, 0xA1]) ∨
    (familyOf w = 0xF ∧ fieldNn w ∉ [0x07, 0x0A, 0x15, 0x18, 0x1E, 0x29, 0x33, 0x55, 0x65])

/-- R61: the fields of a word, as numbers, and how they overlap. -/
def Obligations.FieldsOfAWord : Prop :=
  ∀ w : Word,
    (familyOf w).toNat = w.toNat / 4096 ∧ (fieldX w).val = w.toNat / 256 % 16 ∧
    (fieldY w).val = w.toNat / 16 % 16 ∧ (fieldN w).val = w.toNat % 16 ∧
    (fieldNn w).toNat = w.toNat % 256 ∧ (fieldNnn w).toNat = w.toNat % 4096 ∧
    (fieldNn w).toNat = 16 * (fieldY w).val + (fieldN w).val ∧
    (fieldNnn w).toNat = 256 * (fieldX w).val + (fieldNn w).toNat

/-- Words written out in 95_test_vectors.md section 2.1 and 30_encoding.md section 7, one or more of each family. -/
def Obligations.WordsOfTheSpecDecode : Prop :=
  decodeWord 0x00E0 = .ok .cls ∧ decodeWord 0x00EE = .ok .ret ∧
  decodeWord 0x10E0 = .ok (.jp 0x0E0) ∧ decodeWord 0x5AB0 = .ok (.seVxVy 0xA 0xB) ∧
  decodeWord 0x600A = .ok (.ldVxNn 0 0x0A) ∧ decodeWord 0x8014 = .ok (.addVxVy 0 1) ∧
  decodeWord 0x8ABE = .ok (.shl 0xA 0xB) ∧ decodeWord 0xA2F0 = .ok (.ldINnn 0x2F0) ∧
  decodeWord 0xBFFF = .ok (.jpV0 0xFFF) ∧ decodeWord 0xD12A = .ok (.drw 1 2 0xA) ∧
  decodeWord 0xE1A1 = .ok (.sknp 1) ∧ decodeWord 0xF165 = .ok (.ldVxMi 1) ∧
  decodeWord 0x0000 = .error (.unsupportedOpcode 0x0000) ∧
  decodeWord 0x8AB8 = .error (.unsupportedOpcode 0x8AB8)

/-! ## Construction -/

/-- The table of 10_state.md section 11: every element after `Construct`, for any `TIME`. The values of I, the stack
slots, FAULT, WAIT and the timestamps are the spec's own decisions (D15, D6, D11, D13; log 24), font bytes
5 to 79 are the parameter it makes of them (D16; log 4), here any bytes. -/
def Obligations.ConstructGivesEveryElementItsValue : Prop :=
  ∀ (T : Type) (p : Config.Params T) (seed : Nat) (prog : List Byte) (t0 : T), prog.length ≤ 3584 →
    ∃ s, State.construct p seed prog t0 = .ok s ∧
      (∀ r, s.getV r = 0) ∧ s.i = 0 ∧ s.pc = 0x200 ∧ s.sp = 0 ∧
      s.stack.length = p.stackDepth ∧ (∀ k, s.stack.getD k 0 = 0) ∧
      s.dt = 0 ∧ s.st = 0 ∧ s.rng = rngSeed seed ∧
      (∀ k, k < 80 → s.byteAt k = p.fontTable.getD k 0) ∧
      (∀ a, 0x50 ≤ a → a < 0x200 → s.byteAt a = 0) ∧
      (∀ k, k < prog.length → s.byteAt (0x200 + k) = prog.getD k 0) ∧
      (∀ a, 0x200 + prog.length ≤ a → a ≤ 0xFFF → s.byteAt a = 0) ∧
      s.fault = none ∧ s.wait = none ∧ s.tInstr = t0 ∧ s.tTimer = t0 ∧ s.params = p

/-- R57: loading writes only 0x200 and above, so the first glyph stands whatever the program is. -/
def Obligations.FontUnaffectedByProgramLoad : Prop :=
  ∀ (p : Config.Params) (seed : Nat) (prog : List Byte) (t0 : Time) (s : State),
    State.construct p seed prog t0 = .ok s →
      (∀ a, a < 0x200 → s.byteAt a = (State.fresh p seed t0).byteAt a) ∧
      s.byteAt 0 = 0xF0 ∧ s.byteAt 1 = 0x90 ∧ s.byteAt 2 = 0x90 ∧ s.byteAt 3 = 0x90 ∧ s.byteAt 4 = 0xF0

/-- R202: up to 3584 bytes are copied to 0x200 and nothing else changes; a longer image is `LoadError`. -/
def Obligations.LoadCopiesOrFailsAbove3584Bytes : Prop :=
  ∀ (prog : List Byte) (s : State), s.mem.wf →
    (prog.length ≤ 3584 → ∃ t, s.load prog = .ok t ∧
      (∀ k, k < prog.length → t.byteAt (0x200 + k) = prog.getD k 0) ∧
      (∀ a, a < 0x200 ∨ 0x200 + prog.length ≤ a → t.byteAt a = s.byteAt a) ∧
      s.SameButMemory t ∧ t.pc = s.pc) ∧
    (3585 ≤ prog.length → s.load prog = .error .imageTooLong)

/-! ## Fetch, step and the instruction cycle -/

/-- R60: the fetch is two byte reads, high byte first, the read at pc first; a read above 0xFFF fails. -/
def Obligations.FetchReadsTwoBytesHighFirst : Prop :=
  ∀ s : State,
    (s.pc.toNat ≤ 0xFFE → ∃ w, s.fetch = .ok w ∧
      w.toNat = 256 * (s.byteAt s.pc.toNat).toNat + (s.byteAt (s.pc.toNat + 1)).toNat) ∧
    (s.pc.toNat = 0xFFF → s.fetch = .error 0x1000) ∧
    (0xFFF < s.pc.toNat → s.fetch = .error s.pc.toNat)

/-- 40_flow.md section 1 and 60_exceptions.md section 5 (D13; logs 6 and 23): a step of a running core on an
invocation whose instruction clock has elapsed executes the word at pc, in the state with the input taken and
the time read: `exec` of the instruction it decodes to, or the no-op of an unsupported word; after it
(`afterInstr`) come the timestamp and the timer check, or nothing on a fault. A fetch that fails raises. -/
def Obligations.StepRunsTheDecodedInstruction : Prop :=
  ∀ (s : State) (d : Time), s.Running → s.nextInput = .invoke d →
    s.params.pInstr ≤ s.clock + d - s.tInstr →
      let s0 := s.takeInput.setClock (s.clock + d)
      (∀ w i, s.fetch = .ok w → decodeWord w = .ok i →
        step s = onNext (afterInstr (s.clock + d)) (exec i s0)) ∧
      (∀ w, s.fetch = .ok w → decodeWord w = .error (.unsupportedOpcode w) →
        step s = onNext (afterInstr (s.clock + d)) (execUnsupported w s0)) ∧
      (∀ w, s.fetch = .ok w →
        step s = onNext (afterInstr (s.clock + d)) (execWord w s0)) ∧
      (∀ a, s.fetch = .error a →
        step s = onNext (afterInstr (s.clock + d)) (raise .memoryFault none (some a) s0))

/-- 60_exceptions.md section 1 (R172) and 40_flow.md section 4 (R91): an unsupported word gives one diagnostic with
the word and its address, and a no-op; that there is exactly one event and what it carries is the spec's
decision D18 (log 25). -/
def Obligations.UnsupportedWordIsADiagnosedNoOp : Prop :=
  ∀ (w : Word) (s : State), decodeWord w = .error (.unsupportedOpcode w) →
    ∃ t, execWord w s = .next t ∧ t.pc = s.pc + 2 ∧
      t.out = s.out ++ [.diagUnsupportedOpcode w s.pc] ∧ t.coll = s.coll ∧ t.keyPolls = s.keyPolls ∧
      s.SameButOutside t

/-- 40_flow.md section 1 (R81, R82) and 44_display_keypad.md section 3 (R161): the default advance of every
instruction that takes no fault, for all instructions at once; a skip goes by 2 or 4, and `Fx0A` stays
(D11, log 22). -/
def Obligations.DefaultAdvanceByTwo : Prop :=
  ∀ (i : Instr) (s t : State), s.Running → exec i s = .next t → t.fault = none →
    (isTransfer i = false → isSkip i = false → (∀ x, i ≠ .ldVxK x) → t.pc = s.pc + 2) ∧
    (isSkip i = true → t.pc = s.pc + 2 ∨ t.pc = s.pc + 4) ∧
    (∀ x, i = .ldVxK x → t.pc = s.pc) ∧
    (s.pc.toNat ≤ 0xFFE → (s.pc + 2).toNat = s.pc.toNat + 2 ∧ (s.pc + 4).toNat = s.pc.toNat + 4)

/-! ## Control transfer -/

/-- R83: `1nnn` sets pc and nothing else. -/
def Obligations.JumpSetsOnlyPc : Prop :=
  ∀ (nnn : Imm12) (s : State),
    ∃ t, exec (.jp nnn) s = .next t ∧ t.pc.toNat = nnn.toNat ∧ s.SameButPc t

/-- 40_flow.md section 2 (R86): `Bnnn` jumps to V0 + nnn, not reduced modulo 4096. -/
def Obligations.JumpV0AddsV0 : Prop :=
  ∀ (nnn : Imm12) (s : State),
    ∃ t, exec (.jpV0 nnn) s = .next t ∧ t.pc.toNat = (s.getV 0).toNat + nnn.toNat ∧ s.SameButPc t

/-- 40_flow.md section 2 (R84): `2nnn` pushes the return address pc + 2, the spec's decision D2 (log 17). -/
def Obligations.CallPushesTheReturnAddress : Prop :=
  ∀ (nnn : Imm12) (s : State), s.stack.length = s.params.stackDepth → s.sp < s.params.stackDepth →
    ∃ t, exec (.call nnn) s = .next t ∧ t.pc.toNat = nnn.toNat ∧ t.sp = s.sp + 1 ∧
      t.stack.getD s.sp 0 = s.pc + 2 ∧ (∀ k, k ≠ s.sp → t.stack.getD k 0 = s.stack.getD k 0) ∧
      t.stack.length = s.stack.length ∧ s.SameButStack t

/-- 60_exceptions.md sections 1 and 2 (R173): a call on a full stack halts with the record of the overflow; the
halted next state is the spec's decision D6 (log 11). -/
def Obligations.CallOnAFullStackOverflows : Prop :=
  ∀ (w : Word) (nnn : Imm12) (s : State), decodeWord w = .ok (.call nnn) → s.sp = s.params.stackDepth →
    ∃ t, execWord w s = .next t ∧ s.HaltedBy t ⟨.stackOverflow, s.pc, some w, none⟩

/-- 10_state.md section 4 (R17, R85): `00EE` on a stack that is not empty pops: pc takes the stored value, sp goes
down, the vacated slot is cleared. -/
def Obligations.ReturnPopsAndClearsTheSlot : Prop :=
  ∀ s : State, s.stack.length = s.params.stackDepth → s.sp ≤ s.params.stackDepth → 0 < s.sp →
    ∃ t, exec .ret s = .next t ∧ t.pc = s.stack.getD (s.sp - 1) 0 ∧ t.sp = s.sp - 1 ∧
      t.stack.getD (s.sp - 1) 0 = 0 ∧
      (∀ k, k ≠ s.sp - 1 → t.stack.getD k 0 = s.stack.getD k 0) ∧
      t.stack.length = s.stack.length ∧ s.SameButStack t

/-- 60_exceptions.md sections 1 and 2 (R174): a return on an empty stack halts with the record of the underflow; the
halted next state is the spec's decision D6 (log 11). -/
def Obligations.ReturnOnAnEmptyStackUnderflows : Prop :=
  ∀ (w : Word) (s : State), decodeWord w = .ok .ret → s.sp = 0 →
    ∃ t, execWord w s = .next t ∧ s.HaltedBy t ⟨.stackUnderflow, s.pc, some 0x00EE, none⟩

/-- 40_flow.md section 2 (R84, R85; D2, log 17): a return right after a call resumes after the call, with
the stack as it was. -/
def Obligations.ReturnAfterCallResumesAfterTheCall : Prop :=
  ∀ (nnn : Imm12) (s t : State), s.Inv → s.sp < s.params.stackDepth → exec (.call nnn) s = .next t →
    ∃ u, exec .ret t = .next u ∧ u.pc = s.pc + 2 ∧ u.sp = s.sp ∧ u.stack = s.stack ∧ s.SameButStack u

/-- R87 to R90: the four skips on registers. -/
def Obligations.RegisterSkips : Prop :=
  ∀ (x y : Reg) (nn : Byte) (s : State),
    (∃ t, exec (.seVxNn x nn) s = .next t ∧ s.SameButPc t ∧
      t.pc = if s.getV x = nn then s.pc + 4 else s.pc + 2) ∧
    (∃ t, exec (.sneVxNn x nn) s = .next t ∧ s.SameButPc t ∧
      t.pc = if s.getV x = nn then s.pc + 2 else s.pc + 4) ∧
    (∃ t, exec (.seVxVy x y) s = .next t ∧ s.SameButPc t ∧
      t.pc = if s.getV x = s.getV y then s.pc + 4 else s.pc + 2) ∧
    (∃ t, exec (.sneVxVy x y) s = .next t ∧ s.SameButPc t ∧
      t.pc = if s.getV x = s.getV y then s.pc + 2 else s.pc + 4)

/-! ## The ALU -/

/-- 41_alu.md sections 2 and 3 (R103, R105 to R108): loads and bitwise logic write `V[x]` alone; that the logic
operations leave VF is the spec's decision D21 (log 26). -/
def Obligations.LoadsAndLogicWriteOnlyVx : Prop :=
  ∀ (x y : Reg) (nn : Byte) (s : State),
    (∃ t, exec (.ldVxNn x nn) s = .next t ∧ t.getV x = nn ∧ t.pc = s.pc + 2 ∧ s.SameButReg x t) ∧
    (∃ t, exec (.ldVxVy x y) s = .next t ∧ t.getV x = s.getV y ∧ t.pc = s.pc + 2 ∧ s.SameButReg x t) ∧
    (∃ t, exec (.or x y) s = .next t ∧ t.getV x = s.getV x ||| s.getV y ∧ t.pc = s.pc + 2 ∧
      s.SameButReg x t) ∧
    (∃ t, exec (.and x y) s = .next t ∧ t.getV x = s.getV x &&& s.getV y ∧ t.pc = s.pc + 2 ∧
      s.SameButReg x t) ∧
    (∃ t, exec (.xor x y) s = .next t ∧ t.getV x = s.getV x ^^^ s.getV y ∧ t.pc = s.pc + 2 ∧
      s.SameButReg x t)

/-- R104: `7xnn` adds modulo 256 and discards the carry. -/
def Obligations.AddImmediateDiscardsTheCarry : Prop :=
  ∀ (x : Reg) (nn : Byte) (s : State),
    ∃ t, exec (.addVxNn x nn) s = .next t ∧
      (t.getV x).toNat = ((s.getV x).toNat + nn.toNat) % 256 ∧ t.pc = s.pc + 2 ∧ s.SameButReg x t

/-- R109, R110, R112: add and the two subtractions, modulo 256, with VF written last as carry or no
borrow; when x is F the flag is what remains. -/
def Obligations.AddAndSubtractSetVf : Prop :=
  ∀ (x y : Reg) (s : State),
    (∃ t, exec (.addVxVy x y) s = .next t ∧
      (x ≠ vF → (t.getV x).toNat = ((s.getV x).toNat + (s.getV y).toNat) % 256) ∧
      t.getV vF = (if 255 < (s.getV x).toNat + (s.getV y).toNat then 1 else 0) ∧
      t.pc = s.pc + 2 ∧ s.SameButRegAndFlag x t) ∧
    (∃ t, exec (.sub x y) s = .next t ∧
      (x ≠ vF → ((t.getV x).toNat : Int) = ((s.getV x).toNat - (s.getV y).toNat : Int) % 256) ∧
      t.getV vF = (if (s.getV y).toNat ≤ (s.getV x).toNat then 1 else 0) ∧
      t.pc = s.pc + 2 ∧ s.SameButRegAndFlag x t) ∧
    (∃ t, exec (.subn x y) s = .next t ∧
      (x ≠ vF → ((t.getV x).toNat : Int) = ((s.getV y).toNat - (s.getV x).toNat : Int) % 256) ∧
      t.getV vF = (if (s.getV x).toNat ≤ (s.getV y).toNat then 1 else 0) ∧
      t.pc = s.pc + 2 ∧ s.SameButRegAndFlag x t)

/-- 41_alu.md section 5 (R113): `8xyE` shifts `V[x]` left by one, and VF is the bit shifted out; that y is ignored is
the spec's decision D21 (log 26). -/
def Obligations.ShiftLeftSetsVf : Prop :=
  ∀ (x y : Reg) (s : State),
    ∃ t, exec (.shl x y) s = .next t ∧
      (x ≠ vF → (t.getV x).toNat = 2 * (s.getV x).toNat % 256) ∧
      (t.getV vF).toNat = (s.getV x).toNat / 128 ∧ t.pc = s.pc + 2 ∧ s.SameButRegAndFlag x t

/-- 41_alu.md section 5 (R111): `8xy6` shifts `V[x]` right by one and ignores y; that the flag is written
last when x is F is the spec's decision D7 (log 21). -/
def Obligations.ShiftRightSetsVf : Prop :=
  ∀ (x y : Reg) (s : State),
    ∃ t, exec (.shr x y) s = .next t ∧
      (x ≠ vF → (t.getV x).toNat = (s.getV x).toNat / 2) ∧
      (t.getV vF).toNat = (s.getV x).toNat % 2 ∧ t.pc = s.pc + 2 ∧ s.SameButRegAndFlag x t

/-- 10_state.md section 9, the source's invariant: "VF is always exactly 0 or 1 after any
arithmetic/shift/draw operation", with R11's list of those operations. -/
def Obligations.VfIsZeroOrOneAfterFlagInstructions : Prop :=
  ∀ (i : Instr) (s t : State), setsFlag i = true → s.Running → exec i s = .next t → t.fault = none →
    t.getV vF = 0 ∨ t.getV vF = 1

/-- 10_state.md section 1 (R10, R11): a register changes only as an ordinary destination, or as VF under
one of the six flag-writing instructions. -/
def Obligations.RegistersChangeOnlyAsDestinations : Prop :=
  ∀ (i : Instr) (s t : State) (r : Reg), exec i s = .next t → isDestination r i = false →
    (r = vF → setsFlag i = false) → t.getV r = s.getV r

/-! ## The index register and memory -/

/-- 42_index_memory.md section 2 (R120, R122): `Annn` and `Fx29` write I alone; that the whole byte is multiplied by
5, unmasked, is the spec's decision D24 (log 26). -/
def Obligations.IndexLoads : Prop :=
  ∀ (nnn : Imm12) (x : Reg) (s : State),
    (∃ t, exec (.ldINnn nnn) s = .next t ∧ t.i.toNat = nnn.toNat ∧ t.pc = s.pc + 2 ∧
      s.SameButIndex t) ∧
    (∃ t, exec (.ldFVx x) s = .next t ∧ t.i.toNat = (s.getV x).toNat * 5 ∧ t.pc = s.pc + 2 ∧
      s.SameButIndex t)

/-- 42_index_memory.md section 2 (R121): `Fx1E` adds without touching VF; that a sum above 0xFFFF faults is
the spec's decision D4 (log 19). -/
def Obligations.IndexAddOrFault : Prop :=
  ∀ (x : Reg) (s : State),
    (s.i.toNat + (s.getV x).toNat ≤ 0xFFFF → ∃ t, exec (.addIVx x) s = .next t ∧
      t.i.toNat = s.i.toNat + (s.getV x).toNat ∧ t.pc = s.pc + 2 ∧ s.SameButIndex t) ∧
    (0xFFFF < s.i.toNat + (s.getV x).toNat → ∃ t, exec (.addIVx x) s = .next t ∧
      s.HaltedBy t ⟨.memoryFault, s.pc, some (encode (.addIVx x)),
        some (s.i.toNat + (s.getV x).toNat)⟩)

/-- 42_index_memory.md section 3 (R123): `Fx33` stores the hundreds, tens and ones of `V[x]` at I, I + 1, I + 2 and
nothing else; above 0xFFD it faults and nothing is written. The halted next state is the spec's decision D6,
its precision D5 (logs 11, 12 and 20). -/
def Obligations.DecimalStore : Prop :=
  ∀ (x : Reg) (s : State), s.mem.wf →
    (s.i.toNat ≤ 0xFFD → ∃ t, exec (.ldBVx x) s = .next t ∧
      (t.byteAt (s.effAddr 0)).toNat = (s.getV x).toNat / 100 ∧
      (t.byteAt (s.effAddr 1)).toNat = (s.getV x).toNat / 10 % 10 ∧
      (t.byteAt (s.effAddr 2)).toNat = (s.getV x).toNat % 10 ∧
      (∀ a, (∀ k, k < 3 → a ≠ s.effAddr k) → t.byteAt a = s.byteAt a) ∧
      t.pc = s.pc + 2 ∧ s.SameButMemory t) ∧
    (0xFFD < s.i.toNat → ∃ t, exec (.ldBVx x) s = .next t ∧
      s.HaltedBy t ⟨.memoryFault, s.pc, some (encode (.ldBVx x)), some (max s.i.toNat 0x1000)⟩)

/-- 42_index_memory.md section 3 (R124): `Fx55` stores V0 to Vx from I up and nothing else, or faults and writes
nothing (D5 and D6; logs 11, 12 and 20). -/
def Obligations.RegisterStore : Prop :=
  ∀ (x : Reg) (s : State), s.mem.wf →
    (s.i.toNat + x.val ≤ 0xFFF → ∃ t, exec (.ldMiVx x) s = .next t ∧
      (∀ k : Reg, k ≤ x → t.byteAt (s.effAddr k.val) = s.getV k) ∧
      (∀ a, (∀ k : Reg, k ≤ x → a ≠ s.effAddr k.val) → t.byteAt a = s.byteAt a) ∧
      t.pc = s.pc + 2 ∧ s.SameButMemory t) ∧
    (0xFFF < s.i.toNat + x.val → ∃ t, exec (.ldMiVx x) s = .next t ∧
      s.HaltedBy t ⟨.memoryFault, s.pc, some (encode (.ldMiVx x)), some (max s.i.toNat 0x1000)⟩)

/-- 42_index_memory.md section 3 (R125): `Fx65` loads V0 to Vx from I up and nothing else, or faults and writes no
register (D5 and D6; logs 11, 12 and 20). -/
def Obligations.RegisterLoad : Prop :=
  ∀ (x : Reg) (s : State),
    (s.i.toNat + x.val ≤ 0xFFF → ∃ t, exec (.ldVxMi x) s = .next t ∧
      (∀ k : Reg, k ≤ x → t.getV k = s.byteAt (s.effAddr k.val)) ∧
      (∀ k : Reg, x < k → t.getV k = s.getV k) ∧
      t.i = s.i ∧ t.pc = s.pc + 2 ∧ s.SameButRegs t) ∧
    (0xFFF < s.i.toNat + x.val → ∃ t, exec (.ldVxMi x) s = .next t ∧
      s.HaltedBy t ⟨.memoryFault, s.pc, some (encode (.ldVxMi x)), some (max s.i.toNat 0x1000)⟩)

/-- 20_memory.md section 5 (R53), the spec's derivation: a store is seen by the next fetch, so a fetch
whose two bytes were just stored by `Fx55` gives the word of the registers stored there. -/
def Obligations.FetchSeesJustStoredBytes : Prop :=
  ∀ (x k j : Reg) (s t : State), s.mem.wf → exec (.ldMiVx x) s = .next t → t.fault = none → j ≤ x →
    j.val = k.val + 1 → t.pc.toNat = s.effAddr k.val →
      t.fetch = .ok (composeWord (s.getV k) (s.getV j))

/-! ## Timers and random -/

/-- 43_timers_random.md section 1 (R140 to R142): `Fx07` reads DT, `Fx15` and `Fx18` write DT and ST, and
none does anything else; `Fx18` makes no audio request. -/
def Obligations.TimerAccess : Prop :=
  ∀ (x : Reg) (s : State),
    (∃ t, exec (.ldVxDt x) s = .next t ∧ t.getV x = s.dt ∧ t.pc = s.pc + 2 ∧ s.SameButReg x t) ∧
    (∃ t, exec (.ldDtVx x) s = .next t ∧ t.dt = s.getV x ∧ t.st = s.st ∧ t.pc = s.pc + 2 ∧
      s.SameRegs t ∧ s.SameMemory t ∧ s.SameStack t ∧ s.SameSystem t ∧ s.SameOutside t) ∧
    (∃ t, exec (.ldStVx x) s = .next t ∧ t.st = s.getV x ∧ t.dt = s.dt ∧ t.pc = s.pc + 2 ∧
      s.SameRegs t ∧ s.SameMemory t ∧ s.SameStack t ∧ s.SameSystem t ∧ s.SameOutside t)

/-- 43_timers_random.md section 2 (R143, R144; D12, log 2): `Cxnn` draws exactly one byte, masks it into
`V[x]`, and advances the generator whatever the mask; nothing is said of the byte's value. -/
def Obligations.RandomDrawsOneMaskedByte : Prop :=
  ∀ (x : Reg) (nn : Byte) (s : State),
    ∃ t, exec (.rnd x nn) s = .next t ∧ t.getV x = (rngStep s.rng).1 &&& nn ∧
      (t.getV x).toNat ≤ nn.toNat ∧ t.rng.seed = s.rng.seed ∧ t.rng.draws = s.rng.draws + 1 ∧
      t.pc = s.pc + 2 ∧ (∀ r, r ≠ x → t.getV r = s.getV r) ∧ t.i = s.i ∧ s.SameMemory t ∧
      s.SameStack t ∧ s.SameTimers t ∧ s.SameControl t ∧ s.SameEnvironment t ∧ s.SameOutside t

/-- R183: the timer tick takes each timer down by one, never below zero, signals audio when ST was
nonzero before it, and touches nothing else. -/
def Obligations.TimerTickDecaysBothTimers : Prop :=
  ∀ s : State,
    (timerTick s).dt.toNat = s.dt.toNat - 1 ∧ (timerTick s).st.toNat = s.st.toNat - 1 ∧
    (s.st ≠ 0 → (timerTick s).out = s.out ++ [.signalAudio] ∧
      (timerTick s).coll.audio = s.coll.audio + 1) ∧
    (s.st = 0 → (timerTick s).out = s.out ∧ (timerTick s).coll.audio = s.coll.audio) ∧
    (timerTick s).pc = s.pc ∧ s.SameRegs (timerTick s) ∧ s.SameMemory (timerTick s) ∧
    s.SameStack (timerTick s) ∧ s.SameSystem (timerTick s) ∧
    (timerTick s).coll.fb = s.coll.fb ∧ (timerTick s).coll.keys = s.coll.keys

/-! ## Display and keypad -/

/-- R157 and R151: `00E0` makes the one call `clear()`, which unsets every pixel, and changes no core
state but pc. -/
def Obligations.ClearScreen : Prop :=
  ∀ s : State,
    ∃ t, exec .cls s = .next t ∧ (∀ row col, pixelAt t.coll.fb row col = false) ∧
      t.coll.keys = s.coll.keys ∧ t.coll.audio = s.coll.audio ∧ t.keyPolls = s.keyPolls ∧
      t.out = s.out ++ [.clear] ∧ t.pc = s.pc + 2 ∧ s.SameButOutside t

/-- 44_display_keypad.md section 1 (R152; the reference collaborator, log 8): `set_pixel` toggles exactly
the wrapped pixel and answers whether it was set; a second identical call undoes the first and reports the
collision. -/
def Obligations.SetPixelTogglesAndReports : Prop :=
  ∀ (x y : Nat) (s : State), s.FbShape →
    let t := (collSetPixel x y true s).1
    let row := y % s.params.fbH
    let col := x % s.params.fbW
    pixelAt t.coll.fb row col = !pixelAt s.coll.fb row col ∧
    (collSetPixel x y true s).2 = pixelAt s.coll.fb row col ∧
    (∀ r c, (r, c) ≠ (row, col) → pixelAt t.coll.fb r c = pixelAt s.coll.fb r c) ∧
    (collSetPixel x y true t).1.coll.fb = s.coll.fb ∧
    (collSetPixel x y true t).2 = !pixelAt s.coll.fb row col

/-- 44_display_keypad.md section 2 (R158; D5, D6, D8, D28, logs 11, 15, 20 and 26): `Dxyn` completes whenever its
rows lie in memory, also when there are none: it makes exactly the calls of its set bits, rows and columns
ascending, coordinates unreduced, each answered on what the ones before it left; VF is 1 exactly when one
answered true; no other core state but pc changes. Otherwise it faults with no call made. That bit 7 is
the leftmost is general knowledge (G2, log 15), the answers are the reference collaborator's (log 8). -/
def Obligations.DrawCompletesOrFaults : Prop :=
  ∀ (x y : Reg) (n : Fin 16) (s : State),
    (n.val = 0 ∨ s.i.toNat + n.val ≤ 0x1000 → ∃ t, exec (.drw x y n) s = .next t ∧
      (let calls := s.spriteCalls x y n.val
       t.out = s.out ++ (List.range calls.length).map (fun k =>
         .setPixel (calls.getD k (0, 0)).1 (calls.getD k (0, 0)).2 true (s.callAnswer calls k)) ∧
       (t.getV vF = 1 ↔ ∃ k, k < calls.length ∧ s.callAnswer calls k = true) ∧
       t.coll.fb = (drawCells calls s).1.coll.fb) ∧
      (n.val = 0 → t.getV vF = 0 ∧ s.SameOutside t) ∧ (t.getV vF = 0 ∨ t.getV vF = 1) ∧
      (∀ r, r ≠ vF → t.getV r = s.getV r) ∧ t.i = s.i ∧ t.pc = s.pc + 2 ∧ s.SameMemory t ∧
      s.SameStack t ∧ s.SameTimers t ∧ s.SameSystem t ∧ t.coll.keys = s.coll.keys ∧
      t.coll.audio = s.coll.audio ∧ t.keyPolls = s.keyPolls) ∧
    (0 < n.val → 0x1000 < s.i.toNat + n.val → ∃ t, exec (.drw x y n) s = .next t ∧
      s.HaltedBy t ⟨.memoryFault, s.pc, some (encode (.drw x y n)), some (max s.i.toNat 0x1000)⟩)

/-- 44_display_keypad.md section 2 (R158, with the bit order of G2, log 15, and the reference collaborator,
log 8): on a framebuffer at least 8 wide and 15 high, where no two bits of a sprite share a pixel, `Dxyn`
toggles exactly the pixels its set bits cover, and VF is 1 exactly when one of them was set. -/
def Obligations.DrawTogglesCoveredPixels : Prop :=
  ∀ (x y : Reg) (n : Fin 16) (s : State), s.FbShape → 8 ≤ s.params.fbW → 15 ≤ s.params.fbH →
    n.val = 0 ∨ s.i.toNat + n.val ≤ 0x1000 →
      ∃ t, exec (.drw x y n) s = .next t ∧ t.FbShape ∧
        (∀ row col, s.Covers x y n.val row col →
          pixelAt t.coll.fb row col = !pixelAt s.coll.fb row col) ∧
        (∀ row col, ¬ s.Covers x y n.val row col →
          pixelAt t.coll.fb row col = pixelAt s.coll.fb row col) ∧
        (t.getV vF = 1 ↔ ∃ row col, s.Covers x y n.val row col ∧ pixelAt s.coll.fb row col = true)

/-- 44_display_keypad.md section 3 (R159, R160; D9, log 9): the key skips poll the key numbered by the
whole byte `V[x]`; above 15 the answer is free, and the instruction still completes. -/
def Obligations.KeySkips : Prop :=
  ∀ (x : Reg) (s : State),
    (∀ k : Key, (s.getV x).toNat = k.val →
      (∃ t, exec (.skp x) s = .next t ∧ t.pc = (if s.coll.keys[k] = true then s.pc + 4 else s.pc + 2) ∧
        t.out = s.out ++ [.isKeyPressed (s.getV x) s.coll.keys[k]] ∧ t.keyPolls = s.keyPolls ∧
        t.coll = s.coll ∧ s.SameButOutside t) ∧
      (∃ t, exec (.sknp x) s = .next t ∧ t.pc = (if s.coll.keys[k] = true then s.pc + 2 else s.pc + 4) ∧
        t.out = s.out ++ [.isKeyPressed (s.getV x) s.coll.keys[k]] ∧ t.keyPolls = s.keyPolls ∧
        t.coll = s.coll ∧ s.SameButOutside t)) ∧
    (15 < (s.getV x).toNat → ∃ p : Bool,
      (∃ t, exec (.skp x) s = .next t ∧ t.pc = (if p = true then s.pc + 4 else s.pc + 2) ∧
        t.out = s.out ++ [.isKeyPressed (s.getV x) p] ∧ t.keyPolls = s.keyPolls + 1 ∧
        t.coll = s.coll ∧ s.SameButOutside t) ∧
      (∃ t, exec (.sknp x) s = .next t ∧ t.pc = (if p = true then s.pc + 2 else s.pc + 4) ∧
        t.out = s.out ++ [.isKeyPressed (s.getV x) p] ∧ t.keyPolls = s.keyPolls + 1 ∧
        t.coll = s.coll ∧ s.SameButOutside t))

/-- 44_display_keypad.md section 3 (R161; D11, log 22): `Fx0A` requests a key and waits; pc stays. -/
def Obligations.KeyWaitBegins : Prop :=
  ∀ (x : Reg) (s : State),
    ∃ t, exec (.ldVxK x) s = .next t ∧ t.wait = some x ∧ t.pc = s.pc ∧ t.out = s.out ++ [.nextKey] ∧
      t.coll = s.coll ∧ t.keyPolls = s.keyPolls ∧ t.fault = s.fault ∧ t.rng = s.rng ∧
      s.SameRegs t ∧ s.SameMemory t ∧ s.SameStack t ∧ s.SameTimers t ∧ s.SameEnvironment t

/-- 44_display_keypad.md section 3 (R162; D11, log 22): a delivered key completes the wait: its number in
`V[x]`, pc past the `Fx0A`, WAIT cleared, nothing else changed but the input taken. -/
def Obligations.KeyDeliveredCompletesTheWait : Prop :=
  ∀ (x : Reg) (k : Key) (s : State), s.fault = none → s.wait = some x →
    s.nextInput = .keyDelivered k →
      ∃ t, step s = .next t ∧ (t.getV x).toNat = k.val ∧ t.pc = s.pc + 2 ∧ t.Running ∧
        (∀ r, r ≠ x → t.getV r = s.getV r) ∧ t.i = s.i ∧ t.rng = s.rng ∧ s.SameMemory t ∧
        s.SameStack t ∧ s.SameTimers t ∧ t.tInstr = s.tInstr ∧ t.tTimer = s.tTimer ∧
        t.clock = s.clock ∧ s.SameOutside t

/-- 44_display_keypad.md sections 1 and 3 (R162, R163; log 7): a key the user moves changes that key alone, and a
key delivered while no wait is on changes nothing but the input taken. -/
def Obligations.KeyInputsOutsideAWait : Prop :=
  ∀ (s : State) (k : Key), s.fault = none →
    (∀ p, s.nextInput = .keyState k p → ∃ t, step s = .next t ∧ t.coll.keys[k] = p ∧
      (∀ j : Key, j ≠ k → t.coll.keys[j] = s.coll.keys[j]) ∧ t.coll.fb = s.coll.fb ∧
      t.coll.audio = s.coll.audio ∧ t.out = s.out ∧ t.keyPolls = s.keyPolls ∧ t.pc = s.pc ∧
      s.SameRegs t ∧ s.SameMemory t ∧ s.SameStack t ∧ s.SameTimers t ∧ t.rng = s.rng ∧
      s.SameControl t ∧ t.tInstr = s.tInstr ∧ t.tTimer = s.tTimer ∧ t.clock = s.clock) ∧
    (s.wait = none → s.nextInput = .keyDelivered k → step s = .next s.takeInput)

/-! ## The scheduler -/

/-- 60_exceptions.md section 5 (R184; D13, log 23): what an invocation of a running core does: the
instruction tick if its period has elapsed, after it the timer tick if its period has elapsed, each
setting its timestamp to the time read, and no timer tick after a tick that faulted. -/
def Obligations.InvocationOfARunningCore : Prop :=
  ∀ (s : State) (d : Time), s.Running → s.nextInput = .invoke d →
    let now := s.clock + d
    let s0 := s.takeInput.setClock now
    (now - s.tInstr < s.params.pInstr → now - s.tTimer < s.params.pTimer → step s = .next s0) ∧
    (now - s.tInstr < s.params.pInstr → s.params.pTimer ≤ now - s.tTimer →
      step s = .next ((timerTick s0).setTTimer now)) ∧
    (∀ u, s.params.pInstr ≤ now - s.tInstr → instrTick s0 = .next u → u.fault = none →
      now - s.tTimer < s.params.pTimer → step s = .next (u.setTInstr now)) ∧
    (∀ u, s.params.pInstr ≤ now - s.tInstr → instrTick s0 = .next u → u.fault = none →
      s.params.pTimer ≤ now - s.tTimer →
      step s = .next ((timerTick (u.setTInstr now)).setTTimer now)) ∧
    (∀ u, s.params.pInstr ≤ now - s.tInstr → instrTick s0 = .next u → u.fault ≠ none →
      step s = .next u)

/-- 60_exceptions.md section 5 (R188; the policies of D10, log 22): while a key wait is on no instruction
runs; under `frozen` nothing changes, under `running` the timers go on. -/
def Obligations.InvocationOfAWaitingCore : Prop :=
  ∀ (s : State) (d : Time), s.Waiting → s.nextInput = .invoke d →
    let now := s.clock + d
    let s0 := s.takeInput.setClock now
    (s.params.keyWait = .frozen → step s = .next s0) ∧
    (s.params.keyWait = .running → now - s.tTimer < s.params.pTimer → step s = .next s0) ∧
    (s.params.keyWait = .running → s.params.pTimer ≤ now - s.tTimer →
      step s = .next ((timerTick s0).setTTimer now))

/-- 60_exceptions.md section 5 (R187 (c), the spec's derivation): if the instruction period is no longer
than the timer period and no instruction tick came after the last timer tick, an invocation of a running
core that fires the timer clock fires the instruction clock too: T_INSTR takes the time read, unless that
tick faulted and the timers did not move. -/
def Obligations.TimerTicksAreSeparatedByInstructions : Prop :=
  ∀ (s t : State) (d : Time), s.Running → s.nextInput = .invoke d → s.params.pInstr ≤ s.params.pTimer →
    s.tInstr ≤ s.tTimer → s.params.pTimer ≤ s.clock + d - s.tTimer → step s = .next t →
      (t.fault = none ∧ t.tInstr = s.clock + d ∧ t.tTimer = s.clock + d) ∨
      (t.fault ≠ none ∧ t.tInstr = s.tInstr ∧ t.tTimer = s.tTimer ∧ s.SameTimers t)

/-- 00_scope.md section 3 (R4, `TIME`) and 60_exceptions.md section 5 (R184, R185; D13, log 1): the unit of time does
not matter. Counting every time in a unit c times finer, the periods among them, changes nothing a step
does but the unit; so the natural numbers stand for readings in any unit. -/
def Obligations.UnitOfTimeDoesNotMatter : Prop :=
  ∀ (c : Nat) (s : State), 0 < c → s.inputs ≠ [] →
    step (s.scaleTime c) = onNext (State.scaleTime c) (step s)

/-- 00_scope.md section 3 (R4, `TIME`) and 60_exceptions.md section 5 (R184, R188; D10, D13; logs 1, 22, 23): what a
step on an invocation does for ANY type of time with an order, a subtraction and an addition, in every
condition of the core; and the machine's `step` is that step with the default `TIME`. -/
def Obligations.SchedulerForAnyTime : Prop :=
  (∀ s : State, step s = stepInput s) ∧
  ∀ (T : Type) [LE T] [DecidableLE T] [Sub T] [Add T] (s : State T) (d : T), s.nextInput = .invoke d →
    let now := s.clock + d
    let s0 := s.takeInput.setClock now
    let instrOver := s.params.pInstr ≤ now - s.tInstr
    let timerOver := s.params.pTimer ≤ now - s.tTimer
    (s.Halted → stepInput s = .next s) ∧
    (s.Running → ¬ instrOver → ¬ timerOver → stepInput s = .next s0) ∧
    (s.Running → ¬ instrOver → timerOver → stepInput s = .next ((timerTick s0).setTTimer now)) ∧
    (∀ u, s.Running → instrOver → instrTick s0 = .next u → u.fault = none → ¬ timerOver →
      stepInput s = .next (u.setTInstr now)) ∧
    (∀ u, s.Running → instrOver → instrTick s0 = .next u → u.fault = none → timerOver →
      stepInput s = .next ((timerTick (u.setTInstr now)).setTTimer now)) ∧
    (∀ u, s.Running → instrOver → instrTick s0 = .next u → u.fault ≠ none → stepInput s = .next u) ∧
    (s.Waiting → s.params.keyWait = .frozen → stepInput s = .next s0) ∧
    (s.Waiting → s.params.keyWait = .running → ¬ timerOver → stepInput s = .next s0) ∧
    (s.Waiting → s.params.keyWait = .running → timerOver →
      stepInput s = .next ((timerTick s0).setTTimer now))

/-! ## Faults -/

/-- 60_exceptions.md section 2 (R176, R178; D6): no step changes anything once FAULT is set, so it is never cleared
and no second fault comes. That a halted step takes no input, reads no time and moves no key is the model's
reading (logs 7 and 11). -/
def Obligations.HaltedForEver : Prop :=
  ∀ (s : State) (r : FaultRecord), s.fault = some r → step s = .next s

/-- 60_exceptions.md section 2 (R176, R177; D5 and D6, logs 11 and 20): faults are precise. A step that
faults leaves every element as it was but FAULT and the report, with the input taken and the time read,
and the record holds the address of the faulting instruction. -/
def Obligations.FaultsArePrecise : Prop :=
  ∀ s t : State, s.fault = none → step s = .next t → t.fault ≠ none →
    ∃ (d : Time) (r : FaultRecord), s.nextInput = .invoke d ∧ r.pc = s.pc ∧
      (s.takeInput.setClock (s.clock + d)).HaltedBy t r

/-- 60_exceptions.md section 1 (R175 (a) to (f); the check at the use of an address is the spec's decision
D3, log 18): exactly where an instruction tick raises `MemoryFault`, and the address a failed fetch
reports. -/
def Obligations.MemoryFaultRaisingPoints : Prop :=
  ∀ s t : State, s.fault = none → instrTick s = .next t →
    ((∃ r, t.fault = some r ∧ r.cause = .memoryFault) ↔
      0xFFE < s.pc.toNat ∨ ∃ w i, s.fetch = .ok w ∧ decodeWord w = .ok i ∧ RaisesMemoryFault s i) ∧
    (0xFFE < s.pc.toNat → s.HaltedBy t ⟨.memoryFault, s.pc, none, some (max s.pc.toNat 0x1000)⟩)

/-! ## The whole machine -/

/-- 10_state.md sections 2 to 8 and 20_memory.md R48: each element of the state is written only by the
instructions named for it, over all instructions; what no instruction writes stays. -/
def Obligations.OnlyTheNamedInstructionsWrite : Prop :=
  ∀ (i : Instr) (s t : State), exec i s = .next t →
    (writesI i = false → t.i = s.i) ∧
    (storesMemory i = false → s.SameMemory t) ∧
    ((∀ x, i ≠ .ldDtVx x) → t.dt = s.dt) ∧
    ((∀ x, i ≠ .ldStVx x) → t.st = s.st) ∧
    ((∀ x nn, i ≠ .rnd x nn) → t.rng = s.rng) ∧
    (i ≠ .ret → (∀ nnn, i ≠ .call nnn) → s.SameStack t) ∧
    ((∀ x, i ≠ .ldVxK x) → t.wait = s.wait) ∧
    (callsCollaborator i = false → t.coll = s.coll ∧ t.keyPolls = s.keyPolls) ∧
    (callsCollaborator i = false → t.fault = none → t.out = s.out) ∧
    s.SameEnvironment t

/-- 10_state.md R26 and R28: the collaborator's state reaches the core only through the answers of its
calls, so an instruction that makes no call does the same whatever the collaborator holds. -/
def Obligations.OnlyCallsSeeTheCollaborator : Prop :=
  ∀ (i : Instr) (s : State) (c : Collab), callsCollaborator i = false →
    ∃ t, exec i s = .next t ∧ exec i (s.setColl c) = .next (t.setColl c)

/-- 60_exceptions.md section 2 and 30_encoding.md R66: nothing stops the model: every instruction and
every step answers a next state, a fault being one (log 11). -/
def Obligations.EveryStepAnswersANextState : Prop :=
  (∀ (i : Instr) (s : State), ∃ t, exec i s = .next t) ∧ ∀ s : State, ∃ t, step s = .next t

/-- 60_exceptions.md section 5 (R184), 00_scope.md R4, 43_timers_random.md R144 and log 10: no step changes a
parameter or the seed, turns time or the generator back, or takes back an output. -/
def Obligations.StepNeverGoesBack : Prop :=
  ∀ s t : State, step s = .next t →
    t.params = s.params ∧ s.clock ≤ t.clock ∧ t.rng.seed = s.rng.seed ∧ s.rng.draws ≤ t.rng.draws ∧
    ∃ l, t.out = s.out ++ l

/-- 10_state.md section 9 and 70_reset_and_hazards.md section 1: the invariant holds of the reset state. -/
def Obligations.ResetMeetsTheInvariant : Prop := State.reset.Inv

/-- 70_reset_and_hazards.md section 1: the invariant holds of every constructed machine. -/
def Obligations.ConstructionMeetsTheInvariant : Prop :=
  ∀ (p : Config.Params) (seed : Nat) (prog : List Byte) (t0 : Time) (s : State),
    State.construct p seed prog t0 = .ok s → s.Inv

/-- 10_state.md section 9 with R13, R17, R85, R156, R192 and log 5: every step keeps the invariant. -/
def Obligations.StepKeepsTheInvariant : Prop :=
  ∀ s t : State, s.Inv → step s = .next t → t.Inv
end

