-- ==== Sys2Proof/Laws/Memory.lean ====
section
/-! SUPPORT. The laws of memory: every operation keeps the canonical form, a read after a write gives the
byte written, and a write leaves every other address alone (20_memory.md R43, R44, R51). -/

namespace Sys2Proof.Machine

theorem Memory.nil_wf : Memory.wf [] := by simp [Memory.wf]

/-- An address no entry lists reads as at construction. -/
theorem Memory.byteAt_unlisted {m : Memory} {a : Nat} (h : ∀ c ∈ m, c.1 ≠ a) :
    m.byteAt a = Memory.initialByte a := by
  induction m with
  | nil => rfl
  | cons c m ih =>
    have hc : a ≠ c.1 := fun e => h c (by simp) e.symm
    simp only [Memory.byteAt, hc, if_false]
    exact ih (fun c' hc' => h c' (List.mem_cons_of_mem _ hc'))

theorem Memory.byteAt_cell_append (a : Nat) (b : Byte) (m : Memory) (c : Nat)
    (h : ∀ e ∈ m, a < e.1) :
    Memory.byteAt (Memory.cell a b ++ m) c = if c = a then b else m.byteAt c := by
  unfold Memory.cell
  by_cases hb : b = Memory.initialByte a
  · by_cases hc : c = a
    · subst hc
      simp only [hb, if_true, List.nil_append]
      exact Memory.byteAt_unlisted (fun e he => Nat.ne_of_gt (h e he))
    · simp [hb, hc]
  · simp [hb, Memory.byteAt]

/-- Read after write (R43, R44). -/
theorem Memory.byteAt_write {m : Memory} (hm : m.wf) (a : Nat) (b : Byte) (c : Nat) :
    (m.write a b).byteAt c = if c = a then b else m.byteAt c := by
  obtain ⟨hs, -⟩ := hm
  induction m with
  | nil =>
    have h := Memory.byteAt_cell_append a b [] c (by simp)
    rwa [List.append_nil] at h
  | cons e m ih =>
    obtain ⟨k, d⟩ := e
    rw [List.pairwise_cons] at hs
    simp only [Memory.write]
    split
    · rename_i hlt
      refine Memory.byteAt_cell_append a b _ c (fun e he => ?_)
      rcases List.mem_cons.mp he with rfl | he
      · exact hlt
      · exact Nat.lt_trans hlt (hs.1 e he)
    · split
      · rename_i heq
        subst heq
        rw [Memory.byteAt_cell_append a b m c (fun e he => hs.1 e he)]
        simp only [Memory.byteAt]
        split <;> simp_all
      · rename_i hne
        simp only [Memory.byteAt, ih hs.2]
        by_cases hc : c = k
        · subst hc
          simp [Ne.symm hne]
        · simp [hc]

theorem Memory.mem_cell {a : Nat} {b : Byte} {e : Host.Cell} (h : e ∈ Memory.cell a b) :
    e = (a, b) ∧ b ≠ Memory.initialByte a := by
  unfold Memory.cell at h
  split at h
  · simp at h
  · rename_i hb
    exact ⟨by simpa using h, hb⟩

/-- Every entry after a write is an old one or the new one. -/
theorem Memory.mem_write {m : Memory} {a : Nat} {b : Byte} {e : Host.Cell} (h : e ∈ m.write a b) :
    e ∈ m ∨ (e = (a, b) ∧ b ≠ Memory.initialByte a) := by
  induction m with
  | nil => exact .inr (Memory.mem_cell h)
  | cons c m ih =>
    obtain ⟨k, d⟩ := c
    simp only [Memory.write] at h
    split at h
    · rcases List.mem_append.mp h with h | h
      · exact .inr (Memory.mem_cell h)
      · exact .inl h
    · split at h
      · rcases List.mem_append.mp h with h | h
        · exact .inr (Memory.mem_cell h)
        · exact .inl (List.mem_cons_of_mem _ h)
      · rcases List.mem_cons.mp h with rfl | h
        · exact .inl (by simp)
        · exact (ih h).imp_left (List.mem_cons_of_mem _)

theorem Memory.pairwise_cell_append {a : Nat} {b : Byte} {m : Memory}
    (hs : m.Pairwise (fun p q => p.1 < q.1)) (h : ∀ e ∈ m, a < e.1) :
    (Memory.cell a b ++ m).Pairwise (fun p q => p.1 < q.1) := by
  unfold Memory.cell
  split
  · simpa using hs
  · exact List.pairwise_cons.mpr ⟨h, hs⟩

/-- A write inside memory keeps the canonical form. -/
theorem Memory.write_wf {m : Memory} (hm : m.wf) {a : Nat} (ha : a < Config.memSize) (b : Byte) :
    (m.write a b).wf := by
  refine ⟨?_, fun c hc => ?_⟩
  · obtain ⟨hs, -⟩ := hm
    induction m with
    | nil => simpa [Memory.write] using Memory.pairwise_cell_append (b := b) hs (a := a) (by simp)
    | cons e m ih =>
      obtain ⟨k, d⟩ := e
      have hs' := List.pairwise_cons.mp hs
      simp only [Memory.write]
      split
      · rename_i hlt
        refine Memory.pairwise_cell_append hs (fun e he => ?_)
        rcases List.mem_cons.mp he with rfl | he
        · exact hlt
        · exact Nat.lt_trans hlt (hs'.1 e he)
      · split
        · rename_i heq
          subst heq
          exact Memory.pairwise_cell_append hs'.2 hs'.1
        · rename_i hlt hne
          refine List.pairwise_cons.mpr ⟨fun e he => ?_, ih hs'.2⟩
          rcases Memory.mem_write he with he | ⟨rfl, -⟩
          · exact hs'.1 e he
          · exact Nat.lt_of_le_of_ne (Nat.le_of_not_lt hlt) (Ne.symm hne)
  · rcases Memory.mem_write hc with hc | ⟨rfl, hb⟩
    · exact hm.2 c hc
    · exact ⟨ha, hb⟩

/-- Writing a run of bytes inside memory keeps the canonical form. -/
theorem Memory.writeBytes_wf {m : Memory} (hm : m.wf) {base : Nat} {bs : List Byte}
    (h : base + bs.length ≤ Config.memSize) : (m.writeBytes base bs).wf := by
  induction bs generalizing m base with
  | nil => exact hm
  | cons b bs ih =>
    simp only [List.length_cons] at h
    exact ih (Memory.write_wf hm (by omega) b) (by omega)

/-- Read after writing a run of bytes: inside the run the byte written there, elsewhere as before. -/
theorem Memory.byteAt_writeBytes {m : Memory} (hm : m.wf) {base : Nat} {bs : List Byte}
    (h : base + bs.length ≤ Config.memSize) (c : Nat) :
    (m.writeBytes base bs).byteAt c =
      if base ≤ c ∧ c < base + bs.length then bs.getD (c - base) 0 else m.byteAt c := by
  induction bs generalizing m base with
  | nil =>
    have : ¬(base ≤ c ∧ c < base + ([] : List Byte).length) := by simp
    rw [if_neg this]
    rfl
  | cons b bs ih =>
    simp only [List.length_cons] at h
    simp only [Memory.writeBytes]
    rw [ih (Memory.write_wf hm (by omega) b) (by omega), Memory.byteAt_write hm]
    simp only [List.length_cons]
    by_cases h1 : base + 1 ≤ c ∧ c < base + 1 + bs.length
    · obtain ⟨j, rfl⟩ : ∃ j, c = base + 1 + j := ⟨c - (base + 1), by omega⟩
      have h2 : base ≤ base + 1 + j ∧ base + 1 + j < base + (bs.length + 1) := by omega
      have e1 : base + 1 + j - (base + 1) = j := by omega
      have e2 : base + 1 + j - base = j + 1 := by omega
      rw [if_pos h1, if_pos h2, e1, e2]
      rfl
    · rw [if_neg h1]
      by_cases hc : c = base
      · subst hc
        simp
      · rw [if_neg hc, if_neg (by omega)]

theorem Memory.readBytes_length (m : Memory) (base n : Nat) : (m.readBytes base n).length = n := by
  induction n generalizing base with
  | zero => rfl
  | succ n ih => simp [Memory.readBytes, ih]

theorem Memory.readBytes_getD (m : Memory) (base n k : Nat) (h : k < n) :
    (m.readBytes base n).getD k 0 = m.byteAt (base + k) := by
  induction n generalizing base k with
  | zero => omega
  | succ n ih =>
    cases k with
    | zero => rfl
    | succ k =>
      have e : base + (k + 1) = base + 1 + k := by omega
      rw [e, ← ih (base + 1) k (by omega)]
      rfl

/-- The range check: none exactly when every address of the range is inside memory (R45). -/
theorem Memory.rangeFault_none {base len : Nat} :
    Memory.rangeFault base len = none ↔ len = 0 ∨ base + len ≤ Config.memSize := by
  unfold Memory.rangeFault
  by_cases h : 0 < len ∧ Config.maxAddr < base + len - 1
  · rw [if_pos h]
    simp only [Config.maxAddr, Config.memSize] at *
    simp only [reduceCtorEq, false_iff]
    omega
  · rw [if_neg h]
    simp only [Config.maxAddr, Config.memSize] at *
    simp only [true_iff]
    omega

/-- The range check that fails names the lowest address above 0xFFF (R126). -/
theorem Memory.rangeFault_some {base len a : Nat} :
    Memory.rangeFault base len = some a ↔
      0 < len ∧ Config.memSize < base + len ∧ a = max base Config.memSize := by
  unfold Memory.rangeFault
  by_cases h : 0 < len ∧ Config.maxAddr < base + len - 1
  · rw [if_pos h]
    simp only [Config.maxAddr, Config.memSize] at *
    simp only [Option.some.injEq]
    omega
  · rw [if_neg h]
    simp only [Config.maxAddr, Config.memSize] at *
    simp only [reduceCtorEq, false_iff]
    omega

/-- `MemRead` (R43): none exactly above 0xFFF. -/
theorem Memory.read_eq (m : Memory) (a : Nat) :
    m.read a = if a < Config.memSize then some (m.byteAt a) else none := by
  unfold Memory.read
  by_cases h : Config.maxAddr < a
  · rw [if_pos h, if_neg (by simp only [Config.maxAddr, Config.memSize] at *; omega)]
  · rw [if_neg h, if_pos (by simp only [Config.maxAddr, Config.memSize] at *; omega)]

end Sys2Proof.Machine
end

