-- ==== Sys2Proof/Laws/State.lean ====
section
/-! SUPPORT. One law for each field under each named update of the state, all true by definition, and
the laws of reading a register after a write. -/

namespace Sys2Proof.Machine

variable {T : Type}

/-! ## setV -/

@[simp] theorem setV_v (s : State T) (x : Reg) (b : Byte) : (s.setV x b).v = s.v.set x b := rfl
@[simp] theorem setV_i (s : State T) (x : Reg) (b : Byte) : (s.setV x b).i = s.i := rfl
@[simp] theorem setV_pc (s : State T) (x : Reg) (b : Byte) : (s.setV x b).pc = s.pc := rfl
@[simp] theorem setV_stack (s : State T) (x : Reg) (b : Byte) : (s.setV x b).stack = s.stack := rfl
@[simp] theorem setV_sp (s : State T) (x : Reg) (b : Byte) : (s.setV x b).sp = s.sp := rfl
@[simp] theorem setV_dt (s : State T) (x : Reg) (b : Byte) : (s.setV x b).dt = s.dt := rfl
@[simp] theorem setV_st (s : State T) (x : Reg) (b : Byte) : (s.setV x b).st = s.st := rfl
@[simp] theorem setV_rng (s : State T) (x : Reg) (b : Byte) : (s.setV x b).rng = s.rng := rfl
@[simp] theorem setV_mem (s : State T) (x : Reg) (b : Byte) : (s.setV x b).mem = s.mem := rfl
@[simp] theorem setV_fault (s : State T) (x : Reg) (b : Byte) : (s.setV x b).fault = s.fault := rfl
@[simp] theorem setV_wait (s : State T) (x : Reg) (b : Byte) : (s.setV x b).wait = s.wait := rfl
@[simp] theorem setV_tInstr (s : State T) (x : Reg) (b : Byte) : (s.setV x b).tInstr = s.tInstr := rfl
@[simp] theorem setV_tTimer (s : State T) (x : Reg) (b : Byte) : (s.setV x b).tTimer = s.tTimer := rfl
@[simp] theorem setV_params (s : State T) (x : Reg) (b : Byte) : (s.setV x b).params = s.params := rfl
@[simp] theorem setV_coll (s : State T) (x : Reg) (b : Byte) : (s.setV x b).coll = s.coll := rfl
@[simp] theorem setV_clock (s : State T) (x : Reg) (b : Byte) : (s.setV x b).clock = s.clock := rfl
@[simp] theorem setV_inputs (s : State T) (x : Reg) (b : Byte) : (s.setV x b).inputs = s.inputs := rfl
@[simp] theorem setV_envCount (s : State T) (x : Reg) (b : Byte) : (s.setV x b).envCount = s.envCount := rfl
@[simp] theorem setV_keyPolls (s : State T) (x : Reg) (b : Byte) : (s.setV x b).keyPolls = s.keyPolls := rfl
@[simp] theorem setV_out (s : State T) (x : Reg) (b : Byte) : (s.setV x b).out = s.out := rfl

/-! ## setI -/

@[simp] theorem setI_v (s : State T) (w : Word) : (s.setI w).v = s.v := rfl
@[simp] theorem setI_i (s : State T) (w : Word) : (s.setI w).i = w := rfl
@[simp] theorem setI_pc (s : State T) (w : Word) : (s.setI w).pc = s.pc := rfl
@[simp] theorem setI_stack (s : State T) (w : Word) : (s.setI w).stack = s.stack := rfl
@[simp] theorem setI_sp (s : State T) (w : Word) : (s.setI w).sp = s.sp := rfl
@[simp] theorem setI_dt (s : State T) (w : Word) : (s.setI w).dt = s.dt := rfl
@[simp] theorem setI_st (s : State T) (w : Word) : (s.setI w).st = s.st := rfl
@[simp] theorem setI_rng (s : State T) (w : Word) : (s.setI w).rng = s.rng := rfl
@[simp] theorem setI_mem (s : State T) (w : Word) : (s.setI w).mem = s.mem := rfl
@[simp] theorem setI_fault (s : State T) (w : Word) : (s.setI w).fault = s.fault := rfl
@[simp] theorem setI_wait (s : State T) (w : Word) : (s.setI w).wait = s.wait := rfl
@[simp] theorem setI_tInstr (s : State T) (w : Word) : (s.setI w).tInstr = s.tInstr := rfl
@[simp] theorem setI_tTimer (s : State T) (w : Word) : (s.setI w).tTimer = s.tTimer := rfl
@[simp] theorem setI_params (s : State T) (w : Word) : (s.setI w).params = s.params := rfl
@[simp] theorem setI_coll (s : State T) (w : Word) : (s.setI w).coll = s.coll := rfl
@[simp] theorem setI_clock (s : State T) (w : Word) : (s.setI w).clock = s.clock := rfl
@[simp] theorem setI_inputs (s : State T) (w : Word) : (s.setI w).inputs = s.inputs := rfl
@[simp] theorem setI_envCount (s : State T) (w : Word) : (s.setI w).envCount = s.envCount := rfl
@[simp] theorem setI_keyPolls (s : State T) (w : Word) : (s.setI w).keyPolls = s.keyPolls := rfl
@[simp] theorem setI_out (s : State T) (w : Word) : (s.setI w).out = s.out := rfl
@[simp] theorem setI_getV (s : State T) (w : Word) (q : Reg) : (s.setI w).getV q = s.getV q := rfl

/-! ## setPc -/

@[simp] theorem setPc_v (s : State T) (w : Word) : (s.setPc w).v = s.v := rfl
@[simp] theorem setPc_i (s : State T) (w : Word) : (s.setPc w).i = s.i := rfl
@[simp] theorem setPc_pc (s : State T) (w : Word) : (s.setPc w).pc = w := rfl
@[simp] theorem setPc_stack (s : State T) (w : Word) : (s.setPc w).stack = s.stack := rfl
@[simp] theorem setPc_sp (s : State T) (w : Word) : (s.setPc w).sp = s.sp := rfl
@[simp] theorem setPc_dt (s : State T) (w : Word) : (s.setPc w).dt = s.dt := rfl
@[simp] theorem setPc_st (s : State T) (w : Word) : (s.setPc w).st = s.st := rfl
@[simp] theorem setPc_rng (s : State T) (w : Word) : (s.setPc w).rng = s.rng := rfl
@[simp] theorem setPc_mem (s : State T) (w : Word) : (s.setPc w).mem = s.mem := rfl
@[simp] theorem setPc_fault (s : State T) (w : Word) : (s.setPc w).fault = s.fault := rfl
@[simp] theorem setPc_wait (s : State T) (w : Word) : (s.setPc w).wait = s.wait := rfl
@[simp] theorem setPc_tInstr (s : State T) (w : Word) : (s.setPc w).tInstr = s.tInstr := rfl
@[simp] theorem setPc_tTimer (s : State T) (w : Word) : (s.setPc w).tTimer = s.tTimer := rfl
@[simp] theorem setPc_params (s : State T) (w : Word) : (s.setPc w).params = s.params := rfl
@[simp] theorem setPc_coll (s : State T) (w : Word) : (s.setPc w).coll = s.coll := rfl
@[simp] theorem setPc_clock (s : State T) (w : Word) : (s.setPc w).clock = s.clock := rfl
@[simp] theorem setPc_inputs (s : State T) (w : Word) : (s.setPc w).inputs = s.inputs := rfl
@[simp] theorem setPc_envCount (s : State T) (w : Word) : (s.setPc w).envCount = s.envCount := rfl
@[simp] theorem setPc_keyPolls (s : State T) (w : Word) : (s.setPc w).keyPolls = s.keyPolls := rfl
@[simp] theorem setPc_out (s : State T) (w : Word) : (s.setPc w).out = s.out := rfl
@[simp] theorem setPc_getV (s : State T) (w : Word) (q : Reg) : (s.setPc w).getV q = s.getV q := rfl

/-! ## setDt -/

@[simp] theorem setDt_v (s : State T) (b : Byte) : (s.setDt b).v = s.v := rfl
@[simp] theorem setDt_i (s : State T) (b : Byte) : (s.setDt b).i = s.i := rfl
@[simp] theorem setDt_pc (s : State T) (b : Byte) : (s.setDt b).pc = s.pc := rfl
@[simp] theorem setDt_stack (s : State T) (b : Byte) : (s.setDt b).stack = s.stack := rfl
@[simp] theorem setDt_sp (s : State T) (b : Byte) : (s.setDt b).sp = s.sp := rfl
@[simp] theorem setDt_dt (s : State T) (b : Byte) : (s.setDt b).dt = b := rfl
@[simp] theorem setDt_st (s : State T) (b : Byte) : (s.setDt b).st = s.st := rfl
@[simp] theorem setDt_rng (s : State T) (b : Byte) : (s.setDt b).rng = s.rng := rfl
@[simp] theorem setDt_mem (s : State T) (b : Byte) : (s.setDt b).mem = s.mem := rfl
@[simp] theorem setDt_fault (s : State T) (b : Byte) : (s.setDt b).fault = s.fault := rfl
@[simp] theorem setDt_wait (s : State T) (b : Byte) : (s.setDt b).wait = s.wait := rfl
@[simp] theorem setDt_tInstr (s : State T) (b : Byte) : (s.setDt b).tInstr = s.tInstr := rfl
@[simp] theorem setDt_tTimer (s : State T) (b : Byte) : (s.setDt b).tTimer = s.tTimer := rfl
@[simp] theorem setDt_params (s : State T) (b : Byte) : (s.setDt b).params = s.params := rfl
@[simp] theorem setDt_coll (s : State T) (b : Byte) : (s.setDt b).coll = s.coll := rfl
@[simp] theorem setDt_clock (s : State T) (b : Byte) : (s.setDt b).clock = s.clock := rfl
@[simp] theorem setDt_inputs (s : State T) (b : Byte) : (s.setDt b).inputs = s.inputs := rfl
@[simp] theorem setDt_envCount (s : State T) (b : Byte) : (s.setDt b).envCount = s.envCount := rfl
@[simp] theorem setDt_keyPolls (s : State T) (b : Byte) : (s.setDt b).keyPolls = s.keyPolls := rfl
@[simp] theorem setDt_out (s : State T) (b : Byte) : (s.setDt b).out = s.out := rfl
@[simp] theorem setDt_getV (s : State T) (b : Byte) (q : Reg) : (s.setDt b).getV q = s.getV q := rfl

/-! ## setSt -/

@[simp] theorem setSt_v (s : State T) (b : Byte) : (s.setSt b).v = s.v := rfl
@[simp] theorem setSt_i (s : State T) (b : Byte) : (s.setSt b).i = s.i := rfl
@[simp] theorem setSt_pc (s : State T) (b : Byte) : (s.setSt b).pc = s.pc := rfl
@[simp] theorem setSt_stack (s : State T) (b : Byte) : (s.setSt b).stack = s.stack := rfl
@[simp] theorem setSt_sp (s : State T) (b : Byte) : (s.setSt b).sp = s.sp := rfl
@[simp] theorem setSt_dt (s : State T) (b : Byte) : (s.setSt b).dt = s.dt := rfl
@[simp] theorem setSt_st (s : State T) (b : Byte) : (s.setSt b).st = b := rfl
@[simp] theorem setSt_rng (s : State T) (b : Byte) : (s.setSt b).rng = s.rng := rfl
@[simp] theorem setSt_mem (s : State T) (b : Byte) : (s.setSt b).mem = s.mem := rfl
@[simp] theorem setSt_fault (s : State T) (b : Byte) : (s.setSt b).fault = s.fault := rfl
@[simp] theorem setSt_wait (s : State T) (b : Byte) : (s.setSt b).wait = s.wait := rfl
@[simp] theorem setSt_tInstr (s : State T) (b : Byte) : (s.setSt b).tInstr = s.tInstr := rfl
@[simp] theorem setSt_tTimer (s : State T) (b : Byte) : (s.setSt b).tTimer = s.tTimer := rfl
@[simp] theorem setSt_params (s : State T) (b : Byte) : (s.setSt b).params = s.params := rfl
@[simp] theorem setSt_coll (s : State T) (b : Byte) : (s.setSt b).coll = s.coll := rfl
@[simp] theorem setSt_clock (s : State T) (b : Byte) : (s.setSt b).clock = s.clock := rfl
@[simp] theorem setSt_inputs (s : State T) (b : Byte) : (s.setSt b).inputs = s.inputs := rfl
@[simp] theorem setSt_envCount (s : State T) (b : Byte) : (s.setSt b).envCount = s.envCount := rfl
@[simp] theorem setSt_keyPolls (s : State T) (b : Byte) : (s.setSt b).keyPolls = s.keyPolls := rfl
@[simp] theorem setSt_out (s : State T) (b : Byte) : (s.setSt b).out = s.out := rfl
@[simp] theorem setSt_getV (s : State T) (b : Byte) (q : Reg) : (s.setSt b).getV q = s.getV q := rfl

/-! ## setRng -/

@[simp] theorem setRng_v (s : State T) (g : Rng) : (s.setRng g).v = s.v := rfl
@[simp] theorem setRng_i (s : State T) (g : Rng) : (s.setRng g).i = s.i := rfl
@[simp] theorem setRng_pc (s : State T) (g : Rng) : (s.setRng g).pc = s.pc := rfl
@[simp] theorem setRng_stack (s : State T) (g : Rng) : (s.setRng g).stack = s.stack := rfl
@[simp] theorem setRng_sp (s : State T) (g : Rng) : (s.setRng g).sp = s.sp := rfl
@[simp] theorem setRng_dt (s : State T) (g : Rng) : (s.setRng g).dt = s.dt := rfl
@[simp] theorem setRng_st (s : State T) (g : Rng) : (s.setRng g).st = s.st := rfl
@[simp] theorem setRng_rng (s : State T) (g : Rng) : (s.setRng g).rng = g := rfl
@[simp] theorem setRng_mem (s : State T) (g : Rng) : (s.setRng g).mem = s.mem := rfl
@[simp] theorem setRng_fault (s : State T) (g : Rng) : (s.setRng g).fault = s.fault := rfl
@[simp] theorem setRng_wait (s : State T) (g : Rng) : (s.setRng g).wait = s.wait := rfl
@[simp] theorem setRng_tInstr (s : State T) (g : Rng) : (s.setRng g).tInstr = s.tInstr := rfl
@[simp] theorem setRng_tTimer (s : State T) (g : Rng) : (s.setRng g).tTimer = s.tTimer := rfl
@[simp] theorem setRng_params (s : State T) (g : Rng) : (s.setRng g).params = s.params := rfl
@[simp] theorem setRng_coll (s : State T) (g : Rng) : (s.setRng g).coll = s.coll := rfl
@[simp] theorem setRng_clock (s : State T) (g : Rng) : (s.setRng g).clock = s.clock := rfl
@[simp] theorem setRng_inputs (s : State T) (g : Rng) : (s.setRng g).inputs = s.inputs := rfl
@[simp] theorem setRng_envCount (s : State T) (g : Rng) : (s.setRng g).envCount = s.envCount := rfl
@[simp] theorem setRng_keyPolls (s : State T) (g : Rng) : (s.setRng g).keyPolls = s.keyPolls := rfl
@[simp] theorem setRng_out (s : State T) (g : Rng) : (s.setRng g).out = s.out := rfl
@[simp] theorem setRng_getV (s : State T) (g : Rng) (q : Reg) : (s.setRng g).getV q = s.getV q := rfl

/-! ## setMem -/

@[simp] theorem setMem_v (s : State T) (m : Memory) : (s.setMem m).v = s.v := rfl
@[simp] theorem setMem_i (s : State T) (m : Memory) : (s.setMem m).i = s.i := rfl
@[simp] theorem setMem_pc (s : State T) (m : Memory) : (s.setMem m).pc = s.pc := rfl
@[simp] theorem setMem_stack (s : State T) (m : Memory) : (s.setMem m).stack = s.stack := rfl
@[simp] theorem setMem_sp (s : State T) (m : Memory) : (s.setMem m).sp = s.sp := rfl
@[simp] theorem setMem_dt (s : State T) (m : Memory) : (s.setMem m).dt = s.dt := rfl
@[simp] theorem setMem_st (s : State T) (m : Memory) : (s.setMem m).st = s.st := rfl
@[simp] theorem setMem_rng (s : State T) (m : Memory) : (s.setMem m).rng = s.rng := rfl
@[simp] theorem setMem_mem (s : State T) (m : Memory) : (s.setMem m).mem = m := rfl
@[simp] theorem setMem_fault (s : State T) (m : Memory) : (s.setMem m).fault = s.fault := rfl
@[simp] theorem setMem_wait (s : State T) (m : Memory) : (s.setMem m).wait = s.wait := rfl
@[simp] theorem setMem_tInstr (s : State T) (m : Memory) : (s.setMem m).tInstr = s.tInstr := rfl
@[simp] theorem setMem_tTimer (s : State T) (m : Memory) : (s.setMem m).tTimer = s.tTimer := rfl
@[simp] theorem setMem_params (s : State T) (m : Memory) : (s.setMem m).params = s.params := rfl
@[simp] theorem setMem_coll (s : State T) (m : Memory) : (s.setMem m).coll = s.coll := rfl
@[simp] theorem setMem_clock (s : State T) (m : Memory) : (s.setMem m).clock = s.clock := rfl
@[simp] theorem setMem_inputs (s : State T) (m : Memory) : (s.setMem m).inputs = s.inputs := rfl
@[simp] theorem setMem_envCount (s : State T) (m : Memory) : (s.setMem m).envCount = s.envCount := rfl
@[simp] theorem setMem_keyPolls (s : State T) (m : Memory) : (s.setMem m).keyPolls = s.keyPolls := rfl
@[simp] theorem setMem_out (s : State T) (m : Memory) : (s.setMem m).out = s.out := rfl
@[simp] theorem setMem_getV (s : State T) (m : Memory) (q : Reg) : (s.setMem m).getV q = s.getV q := rfl

/-! ## setWait -/

@[simp] theorem setWait_v (s : State T) (w : Option Reg) : (s.setWait w).v = s.v := rfl
@[simp] theorem setWait_i (s : State T) (w : Option Reg) : (s.setWait w).i = s.i := rfl
@[simp] theorem setWait_pc (s : State T) (w : Option Reg) : (s.setWait w).pc = s.pc := rfl
@[simp] theorem setWait_stack (s : State T) (w : Option Reg) : (s.setWait w).stack = s.stack := rfl
@[simp] theorem setWait_sp (s : State T) (w : Option Reg) : (s.setWait w).sp = s.sp := rfl
@[simp] theorem setWait_dt (s : State T) (w : Option Reg) : (s.setWait w).dt = s.dt := rfl
@[simp] theorem setWait_st (s : State T) (w : Option Reg) : (s.setWait w).st = s.st := rfl
@[simp] theorem setWait_rng (s : State T) (w : Option Reg) : (s.setWait w).rng = s.rng := rfl
@[simp] theorem setWait_mem (s : State T) (w : Option Reg) : (s.setWait w).mem = s.mem := rfl
@[simp] theorem setWait_fault (s : State T) (w : Option Reg) : (s.setWait w).fault = s.fault := rfl
@[simp] theorem setWait_wait (s : State T) (w : Option Reg) : (s.setWait w).wait = w := rfl
@[simp] theorem setWait_tInstr (s : State T) (w : Option Reg) : (s.setWait w).tInstr = s.tInstr := rfl
@[simp] theorem setWait_tTimer (s : State T) (w : Option Reg) : (s.setWait w).tTimer = s.tTimer := rfl
@[simp] theorem setWait_params (s : State T) (w : Option Reg) : (s.setWait w).params = s.params := rfl
@[simp] theorem setWait_coll (s : State T) (w : Option Reg) : (s.setWait w).coll = s.coll := rfl
@[simp] theorem setWait_clock (s : State T) (w : Option Reg) : (s.setWait w).clock = s.clock := rfl
@[simp] theorem setWait_inputs (s : State T) (w : Option Reg) : (s.setWait w).inputs = s.inputs := rfl
@[simp] theorem setWait_envCount (s : State T) (w : Option Reg) : (s.setWait w).envCount = s.envCount := rfl
@[simp] theorem setWait_keyPolls (s : State T) (w : Option Reg) : (s.setWait w).keyPolls = s.keyPolls := rfl
@[simp] theorem setWait_out (s : State T) (w : Option Reg) : (s.setWait w).out = s.out := rfl
@[simp] theorem setWait_getV (s : State T) (w : Option Reg) (q : Reg) : (s.setWait w).getV q = s.getV q := rfl

/-! ## setTInstr -/

@[simp] theorem setTInstr_v (s : State T) (t : T) : (s.setTInstr t).v = s.v := rfl
@[simp] theorem setTInstr_i (s : State T) (t : T) : (s.setTInstr t).i = s.i := rfl
@[simp] theorem setTInstr_pc (s : State T) (t : T) : (s.setTInstr t).pc = s.pc := rfl
@[simp] theorem setTInstr_stack (s : State T) (t : T) : (s.setTInstr t).stack = s.stack := rfl
@[simp] theorem setTInstr_sp (s : State T) (t : T) : (s.setTInstr t).sp = s.sp := rfl
@[simp] theorem setTInstr_dt (s : State T) (t : T) : (s.setTInstr t).dt = s.dt := rfl
@[simp] theorem setTInstr_st (s : State T) (t : T) : (s.setTInstr t).st = s.st := rfl
@[simp] theorem setTInstr_rng (s : State T) (t : T) : (s.setTInstr t).rng = s.rng := rfl
@[simp] theorem setTInstr_mem (s : State T) (t : T) : (s.setTInstr t).mem = s.mem := rfl
@[simp] theorem setTInstr_fault (s : State T) (t : T) : (s.setTInstr t).fault = s.fault := rfl
@[simp] theorem setTInstr_wait (s : State T) (t : T) : (s.setTInstr t).wait = s.wait := rfl
@[simp] theorem setTInstr_tInstr (s : State T) (t : T) : (s.setTInstr t).tInstr = t := rfl
@[simp] theorem setTInstr_tTimer (s : State T) (t : T) : (s.setTInstr t).tTimer = s.tTimer := rfl
@[simp] theorem setTInstr_params (s : State T) (t : T) : (s.setTInstr t).params = s.params := rfl
@[simp] theorem setTInstr_coll (s : State T) (t : T) : (s.setTInstr t).coll = s.coll := rfl
@[simp] theorem setTInstr_clock (s : State T) (t : T) : (s.setTInstr t).clock = s.clock := rfl
@[simp] theorem setTInstr_inputs (s : State T) (t : T) : (s.setTInstr t).inputs = s.inputs := rfl
@[simp] theorem setTInstr_envCount (s : State T) (t : T) : (s.setTInstr t).envCount = s.envCount := rfl
@[simp] theorem setTInstr_keyPolls (s : State T) (t : T) : (s.setTInstr t).keyPolls = s.keyPolls := rfl
@[simp] theorem setTInstr_out (s : State T) (t : T) : (s.setTInstr t).out = s.out := rfl
@[simp] theorem setTInstr_getV (s : State T) (t : T) (q : Reg) : (s.setTInstr t).getV q = s.getV q := rfl

/-! ## setTTimer -/

@[simp] theorem setTTimer_v (s : State T) (t : T) : (s.setTTimer t).v = s.v := rfl
@[simp] theorem setTTimer_i (s : State T) (t : T) : (s.setTTimer t).i = s.i := rfl
@[simp] theorem setTTimer_pc (s : State T) (t : T) : (s.setTTimer t).pc = s.pc := rfl
@[simp] theorem setTTimer_stack (s : State T) (t : T) : (s.setTTimer t).stack = s.stack := rfl
@[simp] theorem setTTimer_sp (s : State T) (t : T) : (s.setTTimer t).sp = s.sp := rfl
@[simp] theorem setTTimer_dt (s : State T) (t : T) : (s.setTTimer t).dt = s.dt := rfl
@[simp] theorem setTTimer_st (s : State T) (t : T) : (s.setTTimer t).st = s.st := rfl
@[simp] theorem setTTimer_rng (s : State T) (t : T) : (s.setTTimer t).rng = s.rng := rfl
@[simp] theorem setTTimer_mem (s : State T) (t : T) : (s.setTTimer t).mem = s.mem := rfl
@[simp] theorem setTTimer_fault (s : State T) (t : T) : (s.setTTimer t).fault = s.fault := rfl
@[simp] theorem setTTimer_wait (s : State T) (t : T) : (s.setTTimer t).wait = s.wait := rfl
@[simp] theorem setTTimer_tInstr (s : State T) (t : T) : (s.setTTimer t).tInstr = s.tInstr := rfl
@[simp] theorem setTTimer_tTimer (s : State T) (t : T) : (s.setTTimer t).tTimer = t := rfl
@[simp] theorem setTTimer_params (s : State T) (t : T) : (s.setTTimer t).params = s.params := rfl
@[simp] theorem setTTimer_coll (s : State T) (t : T) : (s.setTTimer t).coll = s.coll := rfl
@[simp] theorem setTTimer_clock (s : State T) (t : T) : (s.setTTimer t).clock = s.clock := rfl
@[simp] theorem setTTimer_inputs (s : State T) (t : T) : (s.setTTimer t).inputs = s.inputs := rfl
@[simp] theorem setTTimer_envCount (s : State T) (t : T) : (s.setTTimer t).envCount = s.envCount := rfl
@[simp] theorem setTTimer_keyPolls (s : State T) (t : T) : (s.setTTimer t).keyPolls = s.keyPolls := rfl
@[simp] theorem setTTimer_out (s : State T) (t : T) : (s.setTTimer t).out = s.out := rfl
@[simp] theorem setTTimer_getV (s : State T) (t : T) (q : Reg) : (s.setTTimer t).getV q = s.getV q := rfl

/-! ## setSlot -/

@[simp] theorem setSlot_v (s : State T) (k : Nat) (w : Word) (n : Nat) : (s.setSlot k w n).v = s.v := rfl
@[simp] theorem setSlot_i (s : State T) (k : Nat) (w : Word) (n : Nat) : (s.setSlot k w n).i = s.i := rfl
@[simp] theorem setSlot_pc (s : State T) (k : Nat) (w : Word) (n : Nat) : (s.setSlot k w n).pc = s.pc := rfl
@[simp] theorem setSlot_stack (s : State T) (k : Nat) (w : Word) (n : Nat) : (s.setSlot k w n).stack = s.stack.set k w := rfl
@[simp] theorem setSlot_sp (s : State T) (k : Nat) (w : Word) (n : Nat) : (s.setSlot k w n).sp = n := rfl
@[simp] theorem setSlot_dt (s : State T) (k : Nat) (w : Word) (n : Nat) : (s.setSlot k w n).dt = s.dt := rfl
@[simp] theorem setSlot_st (s : State T) (k : Nat) (w : Word) (n : Nat) : (s.setSlot k w n).st = s.st := rfl
@[simp] theorem setSlot_rng (s : State T) (k : Nat) (w : Word) (n : Nat) : (s.setSlot k w n).rng = s.rng := rfl
@[simp] theorem setSlot_mem (s : State T) (k : Nat) (w : Word) (n : Nat) : (s.setSlot k w n).mem = s.mem := rfl
@[simp] theorem setSlot_fault (s : State T) (k : Nat) (w : Word) (n : Nat) : (s.setSlot k w n).fault = s.fault := rfl
@[simp] theorem setSlot_wait (s : State T) (k : Nat) (w : Word) (n : Nat) : (s.setSlot k w n).wait = s.wait := rfl
@[simp] theorem setSlot_tInstr (s : State T) (k : Nat) (w : Word) (n : Nat) : (s.setSlot k w n).tInstr = s.tInstr := rfl
@[simp] theorem setSlot_tTimer (s : State T) (k : Nat) (w : Word) (n : Nat) : (s.setSlot k w n).tTimer = s.tTimer := rfl
@[simp] theorem setSlot_params (s : State T) (k : Nat) (w : Word) (n : Nat) : (s.setSlot k w n).params = s.params := rfl
@[simp] theorem setSlot_coll (s : State T) (k : Nat) (w : Word) (n : Nat) : (s.setSlot k w n).coll = s.coll := rfl
@[simp] theorem setSlot_clock (s : State T) (k : Nat) (w : Word) (n : Nat) : (s.setSlot k w n).clock = s.clock := rfl
@[simp] theorem setSlot_inputs (s : State T) (k : Nat) (w : Word) (n : Nat) : (s.setSlot k w n).inputs = s.inputs := rfl
@[simp] theorem setSlot_envCount (s : State T) (k : Nat) (w : Word) (n : Nat) : (s.setSlot k w n).envCount = s.envCount := rfl
@[simp] theorem setSlot_keyPolls (s : State T) (k : Nat) (w : Word) (n : Nat) : (s.setSlot k w n).keyPolls = s.keyPolls := rfl
@[simp] theorem setSlot_out (s : State T) (k : Nat) (w : Word) (n : Nat) : (s.setSlot k w n).out = s.out := rfl
@[simp] theorem setSlot_getV (s : State T) (k : Nat) (w : Word) (n : Nat) (q : Reg) : (s.setSlot k w n).getV q = s.getV q := rfl

/-! ## setColl -/

@[simp] theorem setColl_v (s : State T) (c : Collab) : (s.setColl c).v = s.v := rfl
@[simp] theorem setColl_i (s : State T) (c : Collab) : (s.setColl c).i = s.i := rfl
@[simp] theorem setColl_pc (s : State T) (c : Collab) : (s.setColl c).pc = s.pc := rfl
@[simp] theorem setColl_stack (s : State T) (c : Collab) : (s.setColl c).stack = s.stack := rfl
@[simp] theorem setColl_sp (s : State T) (c : Collab) : (s.setColl c).sp = s.sp := rfl
@[simp] theorem setColl_dt (s : State T) (c : Collab) : (s.setColl c).dt = s.dt := rfl
@[simp] theorem setColl_st (s : State T) (c : Collab) : (s.setColl c).st = s.st := rfl
@[simp] theorem setColl_rng (s : State T) (c : Collab) : (s.setColl c).rng = s.rng := rfl
@[simp] theorem setColl_mem (s : State T) (c : Collab) : (s.setColl c).mem = s.mem := rfl
@[simp] theorem setColl_fault (s : State T) (c : Collab) : (s.setColl c).fault = s.fault := rfl
@[simp] theorem setColl_wait (s : State T) (c : Collab) : (s.setColl c).wait = s.wait := rfl
@[simp] theorem setColl_tInstr (s : State T) (c : Collab) : (s.setColl c).tInstr = s.tInstr := rfl
@[simp] theorem setColl_tTimer (s : State T) (c : Collab) : (s.setColl c).tTimer = s.tTimer := rfl
@[simp] theorem setColl_params (s : State T) (c : Collab) : (s.setColl c).params = s.params := rfl
@[simp] theorem setColl_coll (s : State T) (c : Collab) : (s.setColl c).coll = c := rfl
@[simp] theorem setColl_clock (s : State T) (c : Collab) : (s.setColl c).clock = s.clock := rfl
@[simp] theorem setColl_inputs (s : State T) (c : Collab) : (s.setColl c).inputs = s.inputs := rfl
@[simp] theorem setColl_envCount (s : State T) (c : Collab) : (s.setColl c).envCount = s.envCount := rfl
@[simp] theorem setColl_keyPolls (s : State T) (c : Collab) : (s.setColl c).keyPolls = s.keyPolls := rfl
@[simp] theorem setColl_out (s : State T) (c : Collab) : (s.setColl c).out = s.out := rfl
@[simp] theorem setColl_getV (s : State T) (c : Collab) (q : Reg) : (s.setColl c).getV q = s.getV q := rfl

/-! ## setKeyPolls -/

@[simp] theorem setKeyPolls_v (s : State T) (n : Nat) : (s.setKeyPolls n).v = s.v := rfl
@[simp] theorem setKeyPolls_i (s : State T) (n : Nat) : (s.setKeyPolls n).i = s.i := rfl
@[simp] theorem setKeyPolls_pc (s : State T) (n : Nat) : (s.setKeyPolls n).pc = s.pc := rfl
@[simp] theorem setKeyPolls_stack (s : State T) (n : Nat) : (s.setKeyPolls n).stack = s.stack := rfl
@[simp] theorem setKeyPolls_sp (s : State T) (n : Nat) : (s.setKeyPolls n).sp = s.sp := rfl
@[simp] theorem setKeyPolls_dt (s : State T) (n : Nat) : (s.setKeyPolls n).dt = s.dt := rfl
@[simp] theorem setKeyPolls_st (s : State T) (n : Nat) : (s.setKeyPolls n).st = s.st := rfl
@[simp] theorem setKeyPolls_rng (s : State T) (n : Nat) : (s.setKeyPolls n).rng = s.rng := rfl
@[simp] theorem setKeyPolls_mem (s : State T) (n : Nat) : (s.setKeyPolls n).mem = s.mem := rfl
@[simp] theorem setKeyPolls_fault (s : State T) (n : Nat) : (s.setKeyPolls n).fault = s.fault := rfl
@[simp] theorem setKeyPolls_wait (s : State T) (n : Nat) : (s.setKeyPolls n).wait = s.wait := rfl
@[simp] theorem setKeyPolls_tInstr (s : State T) (n : Nat) : (s.setKeyPolls n).tInstr = s.tInstr := rfl
@[simp] theorem setKeyPolls_tTimer (s : State T) (n : Nat) : (s.setKeyPolls n).tTimer = s.tTimer := rfl
@[simp] theorem setKeyPolls_params (s : State T) (n : Nat) : (s.setKeyPolls n).params = s.params := rfl
@[simp] theorem setKeyPolls_coll (s : State T) (n : Nat) : (s.setKeyPolls n).coll = s.coll := rfl
@[simp] theorem setKeyPolls_clock (s : State T) (n : Nat) : (s.setKeyPolls n).clock = s.clock := rfl
@[simp] theorem setKeyPolls_inputs (s : State T) (n : Nat) : (s.setKeyPolls n).inputs = s.inputs := rfl
@[simp] theorem setKeyPolls_envCount (s : State T) (n : Nat) : (s.setKeyPolls n).envCount = s.envCount := rfl
@[simp] theorem setKeyPolls_keyPolls (s : State T) (n : Nat) : (s.setKeyPolls n).keyPolls = n := rfl
@[simp] theorem setKeyPolls_out (s : State T) (n : Nat) : (s.setKeyPolls n).out = s.out := rfl
@[simp] theorem setKeyPolls_getV (s : State T) (n : Nat) (q : Reg) : (s.setKeyPolls n).getV q = s.getV q := rfl

/-! ## setClock -/

@[simp] theorem setClock_v (s : State T) (t : T) : (s.setClock t).v = s.v := rfl
@[simp] theorem setClock_i (s : State T) (t : T) : (s.setClock t).i = s.i := rfl
@[simp] theorem setClock_pc (s : State T) (t : T) : (s.setClock t).pc = s.pc := rfl
@[simp] theorem setClock_stack (s : State T) (t : T) : (s.setClock t).stack = s.stack := rfl
@[simp] theorem setClock_sp (s : State T) (t : T) : (s.setClock t).sp = s.sp := rfl
@[simp] theorem setClock_dt (s : State T) (t : T) : (s.setClock t).dt = s.dt := rfl
@[simp] theorem setClock_st (s : State T) (t : T) : (s.setClock t).st = s.st := rfl
@[simp] theorem setClock_rng (s : State T) (t : T) : (s.setClock t).rng = s.rng := rfl
@[simp] theorem setClock_mem (s : State T) (t : T) : (s.setClock t).mem = s.mem := rfl
@[simp] theorem setClock_fault (s : State T) (t : T) : (s.setClock t).fault = s.fault := rfl
@[simp] theorem setClock_wait (s : State T) (t : T) : (s.setClock t).wait = s.wait := rfl
@[simp] theorem setClock_tInstr (s : State T) (t : T) : (s.setClock t).tInstr = s.tInstr := rfl
@[simp] theorem setClock_tTimer (s : State T) (t : T) : (s.setClock t).tTimer = s.tTimer := rfl
@[simp] theorem setClock_params (s : State T) (t : T) : (s.setClock t).params = s.params := rfl
@[simp] theorem setClock_coll (s : State T) (t : T) : (s.setClock t).coll = s.coll := rfl
@[simp] theorem setClock_clock (s : State T) (t : T) : (s.setClock t).clock = t := rfl
@[simp] theorem setClock_inputs (s : State T) (t : T) : (s.setClock t).inputs = s.inputs := rfl
@[simp] theorem setClock_envCount (s : State T) (t : T) : (s.setClock t).envCount = s.envCount := rfl
@[simp] theorem setClock_keyPolls (s : State T) (t : T) : (s.setClock t).keyPolls = s.keyPolls := rfl
@[simp] theorem setClock_out (s : State T) (t : T) : (s.setClock t).out = s.out := rfl
@[simp] theorem setClock_getV (s : State T) (t : T) (q : Reg) : (s.setClock t).getV q = s.getV q := rfl

/-! ## emit -/

@[simp] theorem emit_v (s : State T) (e : Event) : (s.emit e).v = s.v := rfl
@[simp] theorem emit_i (s : State T) (e : Event) : (s.emit e).i = s.i := rfl
@[simp] theorem emit_pc (s : State T) (e : Event) : (s.emit e).pc = s.pc := rfl
@[simp] theorem emit_stack (s : State T) (e : Event) : (s.emit e).stack = s.stack := rfl
@[simp] theorem emit_sp (s : State T) (e : Event) : (s.emit e).sp = s.sp := rfl
@[simp] theorem emit_dt (s : State T) (e : Event) : (s.emit e).dt = s.dt := rfl
@[simp] theorem emit_st (s : State T) (e : Event) : (s.emit e).st = s.st := rfl
@[simp] theorem emit_rng (s : State T) (e : Event) : (s.emit e).rng = s.rng := rfl
@[simp] theorem emit_mem (s : State T) (e : Event) : (s.emit e).mem = s.mem := rfl
@[simp] theorem emit_fault (s : State T) (e : Event) : (s.emit e).fault = s.fault := rfl
@[simp] theorem emit_wait (s : State T) (e : Event) : (s.emit e).wait = s.wait := rfl
@[simp] theorem emit_tInstr (s : State T) (e : Event) : (s.emit e).tInstr = s.tInstr := rfl
@[simp] theorem emit_tTimer (s : State T) (e : Event) : (s.emit e).tTimer = s.tTimer := rfl
@[simp] theorem emit_params (s : State T) (e : Event) : (s.emit e).params = s.params := rfl
@[simp] theorem emit_coll (s : State T) (e : Event) : (s.emit e).coll = s.coll := rfl
@[simp] theorem emit_clock (s : State T) (e : Event) : (s.emit e).clock = s.clock := rfl
@[simp] theorem emit_inputs (s : State T) (e : Event) : (s.emit e).inputs = s.inputs := rfl
@[simp] theorem emit_envCount (s : State T) (e : Event) : (s.emit e).envCount = s.envCount := rfl
@[simp] theorem emit_keyPolls (s : State T) (e : Event) : (s.emit e).keyPolls = s.keyPolls := rfl
@[simp] theorem emit_out (s : State T) (e : Event) : (s.emit e).out = s.out ++ [e] := rfl
@[simp] theorem emit_getV (s : State T) (e : Event) (q : Reg) : (s.emit e).getV q = s.getV q := rfl

/-! ## setFault -/

@[simp] theorem setFault_v (s : State T) (r : FaultRecord) : (s.setFault r).v = s.v := rfl
@[simp] theorem setFault_i (s : State T) (r : FaultRecord) : (s.setFault r).i = s.i := rfl
@[simp] theorem setFault_pc (s : State T) (r : FaultRecord) : (s.setFault r).pc = s.pc := rfl
@[simp] theorem setFault_stack (s : State T) (r : FaultRecord) : (s.setFault r).stack = s.stack := rfl
@[simp] theorem setFault_sp (s : State T) (r : FaultRecord) : (s.setFault r).sp = s.sp := rfl
@[simp] theorem setFault_dt (s : State T) (r : FaultRecord) : (s.setFault r).dt = s.dt := rfl
@[simp] theorem setFault_st (s : State T) (r : FaultRecord) : (s.setFault r).st = s.st := rfl
@[simp] theorem setFault_rng (s : State T) (r : FaultRecord) : (s.setFault r).rng = s.rng := rfl
@[simp] theorem setFault_mem (s : State T) (r : FaultRecord) : (s.setFault r).mem = s.mem := rfl
@[simp] theorem setFault_fault (s : State T) (r : FaultRecord) : (s.setFault r).fault = some r := rfl
@[simp] theorem setFault_wait (s : State T) (r : FaultRecord) : (s.setFault r).wait = s.wait := rfl
@[simp] theorem setFault_tInstr (s : State T) (r : FaultRecord) : (s.setFault r).tInstr = s.tInstr := rfl
@[simp] theorem setFault_tTimer (s : State T) (r : FaultRecord) : (s.setFault r).tTimer = s.tTimer := rfl
@[simp] theorem setFault_params (s : State T) (r : FaultRecord) : (s.setFault r).params = s.params := rfl
@[simp] theorem setFault_coll (s : State T) (r : FaultRecord) : (s.setFault r).coll = s.coll := rfl
@[simp] theorem setFault_clock (s : State T) (r : FaultRecord) : (s.setFault r).clock = s.clock := rfl
@[simp] theorem setFault_inputs (s : State T) (r : FaultRecord) : (s.setFault r).inputs = s.inputs := rfl
@[simp] theorem setFault_envCount (s : State T) (r : FaultRecord) : (s.setFault r).envCount = s.envCount := rfl
@[simp] theorem setFault_keyPolls (s : State T) (r : FaultRecord) : (s.setFault r).keyPolls = s.keyPolls := rfl
@[simp] theorem setFault_out (s : State T) (r : FaultRecord) : (s.setFault r).out = s.out ++ [.faultReport r s.snapshot] := rfl
@[simp] theorem setFault_getV (s : State T) (r : FaultRecord) (q : Reg) : (s.setFault r).getV q = s.getV q := rfl

/-! ## advance -/

@[simp] theorem advance_v (s : State T) : s.advance.v = s.v := rfl
@[simp] theorem advance_i (s : State T) : s.advance.i = s.i := rfl
@[simp] theorem advance_pc (s : State T) : s.advance.pc = s.pc + 2 := rfl
@[simp] theorem advance_stack (s : State T) : s.advance.stack = s.stack := rfl
@[simp] theorem advance_sp (s : State T) : s.advance.sp = s.sp := rfl
@[simp] theorem advance_dt (s : State T) : s.advance.dt = s.dt := rfl
@[simp] theorem advance_st (s : State T) : s.advance.st = s.st := rfl
@[simp] theorem advance_rng (s : State T) : s.advance.rng = s.rng := rfl
@[simp] theorem advance_mem (s : State T) : s.advance.mem = s.mem := rfl
@[simp] theorem advance_fault (s : State T) : s.advance.fault = s.fault := rfl
@[simp] theorem advance_wait (s : State T) : s.advance.wait = s.wait := rfl
@[simp] theorem advance_tInstr (s : State T) : s.advance.tInstr = s.tInstr := rfl
@[simp] theorem advance_tTimer (s : State T) : s.advance.tTimer = s.tTimer := rfl
@[simp] theorem advance_params (s : State T) : s.advance.params = s.params := rfl
@[simp] theorem advance_coll (s : State T) : s.advance.coll = s.coll := rfl
@[simp] theorem advance_clock (s : State T) : s.advance.clock = s.clock := rfl
@[simp] theorem advance_inputs (s : State T) : s.advance.inputs = s.inputs := rfl
@[simp] theorem advance_envCount (s : State T) : s.advance.envCount = s.envCount := rfl
@[simp] theorem advance_keyPolls (s : State T) : s.advance.keyPolls = s.keyPolls := rfl
@[simp] theorem advance_out (s : State T) : s.advance.out = s.out := rfl
@[simp] theorem advance_getV (s : State T) (q : Reg) : s.advance.getV q = s.getV q := rfl

/-! ## skip -/

@[simp] theorem skip_v (s : State T) : s.skip.v = s.v := rfl
@[simp] theorem skip_i (s : State T) : s.skip.i = s.i := rfl
@[simp] theorem skip_pc (s : State T) : s.skip.pc = s.pc + 4 := rfl
@[simp] theorem skip_stack (s : State T) : s.skip.stack = s.stack := rfl
@[simp] theorem skip_sp (s : State T) : s.skip.sp = s.sp := rfl
@[simp] theorem skip_dt (s : State T) : s.skip.dt = s.dt := rfl
@[simp] theorem skip_st (s : State T) : s.skip.st = s.st := rfl
@[simp] theorem skip_rng (s : State T) : s.skip.rng = s.rng := rfl
@[simp] theorem skip_mem (s : State T) : s.skip.mem = s.mem := rfl
@[simp] theorem skip_fault (s : State T) : s.skip.fault = s.fault := rfl
@[simp] theorem skip_wait (s : State T) : s.skip.wait = s.wait := rfl
@[simp] theorem skip_tInstr (s : State T) : s.skip.tInstr = s.tInstr := rfl
@[simp] theorem skip_tTimer (s : State T) : s.skip.tTimer = s.tTimer := rfl
@[simp] theorem skip_params (s : State T) : s.skip.params = s.params := rfl
@[simp] theorem skip_coll (s : State T) : s.skip.coll = s.coll := rfl
@[simp] theorem skip_clock (s : State T) : s.skip.clock = s.clock := rfl
@[simp] theorem skip_inputs (s : State T) : s.skip.inputs = s.inputs := rfl
@[simp] theorem skip_envCount (s : State T) : s.skip.envCount = s.envCount := rfl
@[simp] theorem skip_keyPolls (s : State T) : s.skip.keyPolls = s.keyPolls := rfl
@[simp] theorem skip_out (s : State T) : s.skip.out = s.out := rfl
@[simp] theorem skip_getV (s : State T) (q : Reg) : s.skip.getV q = s.getV q := rfl

/-! ## Registers -/

theorem setV_getV (s : State T) (x r : Reg) (b : Byte) :
    (s.setV x b).getV r = if r = x then b else s.getV r := by
  by_cases h : r = x
  · subst h
    simp [State.getV, State.setV]
  · have hne : x.val ≠ r.val := fun h' => h (Fin.ext h'.symm)
    simp only [h, if_false]
    exact Vector.getElem_set_ne x.isLt r.isLt hne

@[simp] theorem setV_getV_self (s : State T) (x : Reg) (b : Byte) : (s.setV x b).getV x = b := by
  simp [setV_getV]

@[simp] theorem setV_getV_ne {s : State T} {x r : Reg} {b : Byte} (h : r ≠ x) :
    (s.setV x b).getV r = s.getV r := by
  simp [setV_getV, h]

/-- Two register files that read the same everywhere are the same. -/
theorem v_ext {s t : State T} (h : ∀ r, t.getV r = s.getV r) : t.v = s.v := by
  apply Vector.ext
  intro k hk
  exact h ⟨k, hk⟩

end Sys2Proof.Machine
end

