-- ==== Sys2Proof/Laws/Ops.lean ====
section
/-! SUPPORT. One law for each shared operation, saying once everything it can do. -/

namespace Sys2Proof.Machine

variable {T : Type}

/-! ## pc and the call stack -/

/-- A conditional skip writes pc alone (R82). -/
theorem skipIf_eq (s : State T) (c : Bool) :
    s.skipIf c = s.setPc (if c = true then s.pc + 4 else s.pc + 2) := by
  cases c <;> rfl

/-- The push that succeeds (R16). -/
theorem push_of_ne {s : State T} (h : s.sp ≠ s.params.stackDepth) (w : Word) :
    s.push w = some (s.setSlot s.sp w (s.sp + 1)) := by
  simp [State.push, h]

/-- The push that overflows (R16). -/
theorem push_of_eq {s : State T} (h : s.sp = s.params.stackDepth) (w : Word) : s.push w = none := by
  simp [State.push, h]

/-- The pop that succeeds (R17). -/
theorem pop_of_pos {s : State T} (h : 0 < s.sp) :
    s.pop = some (s.stack.getD (s.sp - 1) 0, s.setSlot (s.sp - 1) 0 (s.sp - 1)) := by
  simp [State.pop, Nat.ne_of_gt h]

/-- The pop that underflows (R17). -/
theorem pop_of_zero {s : State T} (h : s.sp = 0) : s.pop = none := by
  simp [State.pop, h]

/-- A slot after a slot was written. -/
theorem getD_set_slot (l : List Word) (k j : Nat) (w : Word) (h : k < l.length) :
    (l.set k w).getD j 0 = if j = k then w else l.getD j 0 := by
  simp only [List.getD_eq_getElem?_getD, List.getElem?_set]
  by_cases hj : j = k
  · subst hj
    simp [h]
  · simp [hj, Ne.symm hj]

/-! ## Faults and answers -/

@[simp] theorem onNext_next (f : State T → State T) (s : State T) : onNext f (.next s) = .next (f s) := rfl

/-- Taking a fault answers a next state: FAULT and the report, nothing else (R176, R177). -/
theorem raise_eq (c : Fault) (w : Option Word) (a : Option Nat) (s : State T) :
    raise c w a s = .next (s.setFault ⟨c, s.pc, w, a⟩) := rfl

theorem raiseIn_eq (i : Instr) (c : Fault) (a : Option Nat) (s : State T) :
    raiseIn i c a s = .next (s.setFault ⟨c, s.pc, some (encode i), a⟩) := rfl

/-! ## Flags -/

theorem flagByte_zero_or_one (c : Bool) : flagByte c = 0 ∨ flagByte c = 1 := by
  cases c <;> simp [flagByte]

theorem flagByte_toNat (c : Bool) : (flagByte c).toNat = c.toNat := by
  cases c <;> rfl

/-- `wrapping_add` as numbers (R100). -/
theorem wrappingAdd_toNat (a b : Byte) : (wrappingAdd a b).1.toNat = (a.toNat + b.toNat) % 256 := by
  simp [wrappingAdd]

/-- `wrapping_sub` as numbers (R101). -/
theorem wrappingSub_toNat (a b : Byte) :
    (wrappingSub a b).1.toNat = if b.toNat ≤ a.toNat then a.toNat - b.toNat else a.toNat + 256 - b.toNat := by
  have ha := a.isLt
  have hb := b.isLt
  simp only [wrappingSub]
  by_cases h : b.toNat ≤ a.toNat
  · simp only [h, if_true, BitVec.toNat_ofNat]
    omega
  · simp only [h, if_false, BitVec.toNat_ofNat]
    omega

/-- What a register reads after a flag-setting instruction: VF the flag, then `V[x]` the result (R102). -/
theorem setResultAndFlag_getV (s : State T) (x r : Reg) (p : Byte × Bool) :
    (s.setResultAndFlag x p).getV r =
      if r = vF then flagByte p.2 else if r = x then p.1 else s.getV r := by
  simp [State.setResultAndFlag, setV_getV]

/-! ## Operand forms -/

theorem zextNnn_toNat (nnn : Imm12) : (zextNnn nnn).toNat = nnn.toNat := by
  have := nnn.isLt
  simp only [zextNnn, BitVec.toNat_setWidth]
  omega

theorem zextByte_toNat (b : Byte) : (zextByte b).toNat = b.toNat := by
  have := b.isLt
  simp only [zextByte, BitVec.toNat_setWidth]
  omega

theorem keyByte_toNat (k : Key) : (keyByte k).toNat = k.val := by
  have := k.isLt
  simp only [keyByte, BitVec.toNat_ofNat]
  omega

/-- The range check of `len` bytes from I passes exactly when they lie in memory (R126). -/
theorem accessFault_none {s : State T} {len : Nat} :
    s.accessFault len = none ↔ len = 0 ∨ s.i.toNat + len ≤ Config.memSize :=
  Memory.rangeFault_none

/-- The range check that fails (R126). -/
theorem accessFault_some {s : State T} {len a : Nat} :
    s.accessFault len = some a ↔
      0 < len ∧ Config.memSize < s.i.toNat + len ∧ a = max s.i.toNat Config.memSize :=
  Memory.rangeFault_some

/-- A byte after a store from I up: inside the run the byte stored, elsewhere as before (R126). -/
theorem storeAtI_byteAt {s : State T} (hm : s.mem.wf) {bs : List Byte}
    (h : s.i.toNat + bs.length ≤ Config.memSize) (a : Nat) :
    (s.storeAtI bs).byteAt a =
      if s.i.toNat ≤ a ∧ a < s.i.toNat + bs.length then bs.getD (a - s.i.toNat) 0 else s.byteAt a :=
  Memory.byteAt_writeBytes hm h a

/-- The `k`-th register number of the run 0 to x. -/
theorem regsUpTo_getElem? : ∀ x k : Reg, (regsUpTo x)[k.val]? = if k ≤ x then some k else none := by
  decide

theorem regsUpTo_length : ∀ x : Reg, (regsUpTo x).length = x.val + 1 := by decide

theorem regsUpTo_nodup : ∀ x : Reg, (regsUpTo x).Nodup := by decide

theorem mem_regsUpTo {x k : Reg} : k ∈ regsUpTo x ↔ k ≤ x := by
  simp [regsUpTo]

theorem valuesUpTo_length (s : State T) (x : Reg) : (s.valuesUpTo x).length = x.val + 1 := by
  simp [State.valuesUpTo, regsUpTo_length]

theorem valuesUpTo_getD (s : State T) {x k : Reg} (h : k ≤ x) : (s.valuesUpTo x).getD k.val 0 = s.getV k := by
  simp [State.valuesUpTo, List.getD_eq_getElem?_getD, regsUpTo_getElem?, h]

theorem bytesAtI_length (s : State T) (n : Nat) : (s.bytesAtI n).length = n :=
  Memory.readBytes_length _ _ _

theorem bytesAtI_getD (s : State T) {n k : Nat} (h : k < n) :
    (s.bytesAtI n).getD k 0 = s.byteAt (s.effAddr k) :=
  Memory.readBytes_getD _ _ _ _ h

/-- Loading registers writes the register file alone. -/
theorem loadRegs_eq (s : State T) (l : List (Reg × Byte)) :
    s.loadRegs l = { s with v := (s.loadRegs l).v } := by
  induction l generalizing s with
  | nil => rfl
  | cons p l ih =>
    obtain ⟨k, b⟩ := p
    simp only [State.loadRegs]
    rw [ih]
    rfl

theorem loadRegs_getV_of_not_mem {s : State T} {l : List (Reg × Byte)} {r : Reg}
    (h : r ∉ l.map Prod.fst) : (s.loadRegs l).getV r = s.getV r := by
  induction l generalizing s with
  | nil => rfl
  | cons p l ih =>
    obtain ⟨k, b⟩ := p
    simp only [List.map_cons, List.mem_cons, not_or] at h
    simp only [State.loadRegs, ih h.2]
    exact setV_getV_ne h.1

theorem loadRegs_getV_of_mem {s : State T} {l : List (Reg × Byte)} {r : Reg} {b : Byte}
    (hn : (l.map Prod.fst).Nodup) (h : (r, b) ∈ l) : (s.loadRegs l).getV r = b := by
  induction l generalizing s with
  | nil => simp at h
  | cons p l ih =>
    obtain ⟨k, c⟩ := p
    simp only [List.map_cons, List.nodup_cons] at hn
    simp only [State.loadRegs]
    rcases List.mem_cons.mp h with h | h
    · obtain ⟨rfl, rfl⟩ := Prod.mk.inj h
      rw [loadRegs_getV_of_not_mem hn.1]
      simp
    · exact ih hn.2 h

theorem zip_regsUpTo_fst {x : Reg} {bs : List Byte} (h : bs.length = x.val + 1) :
    ((regsUpTo x).zip bs).map Prod.fst = regsUpTo x := by
  apply List.map_fst_zip
  rw [regsUpTo_length, h]

/-- What a register reads after `Fx65` has loaded V0 to Vx from a run of bytes (R125). -/
theorem loadRegs_upTo_getV (s : State T) {x : Reg} {bs : List Byte} (h : bs.length = x.val + 1) (r : Reg) :
    (s.loadRegs ((regsUpTo x).zip bs)).getV r = if r ≤ x then bs.getD r.val 0 else s.getV r := by
  have hf := zip_regsUpTo_fst h
  split
  · rename_i hr
    refine loadRegs_getV_of_mem (by rw [hf]; exact regsUpTo_nodup x) ?_
    have hlt : r.val < bs.length := by rw [h]; exact Nat.lt_succ_of_le hr
    refine List.mem_iff_getElem?.mpr ⟨r.val, ?_⟩
    rw [List.getElem?_zip_eq_some]
    simp [regsUpTo_getElem?, hr, hlt]
  · rename_i hr
    exact loadRegs_getV_of_not_mem (by rw [hf, mem_regsUpTo]; exact hr)

end Sys2Proof.Machine
end

