-- ==== Sys2Proof/Laws/Collab.lean ====
section
/-! SUPPORT. The laws of the reference collaborator (44_display_keypad.md R151, R152, R156) and of a run
of `set_pixel` calls. -/

namespace Sys2Proof.Machine

theorem pixelAt_blankFb (w h row col : Nat) : pixelAt (blankFb w h) row col = false := by
  simp only [pixelAt, blankFb, List.getD_eq_getElem?_getD, List.getElem?_replicate]
  split <;> simp [List.getElem?_replicate]
  split <;> rfl

/-- A pixel after a pixel inside the framebuffer was set. -/
theorem pixelAt_putPixel {fb : List (List Bool)} {row col : Nat} (hr : row < fb.length)
    (hc : col < (fb.getD row []).length) (b : Bool) (r c : Nat) :
    pixelAt (putPixel fb row col b) r c = if (r, c) = (row, col) then b else pixelAt fb r c := by
  simp only [Prod.mk.injEq]
  by_cases h : r = row
  · subst h
    by_cases h' : c = col
    · subst h'
      simp only [List.getD_eq_getElem?_getD] at hc
      simp only [pixelAt, putPixel, List.getD_eq_getElem?_getD, List.getElem?_set, hr, if_true,
        Option.getD_some]
      simp [hc]
    · simp only [pixelAt, putPixel, List.getD_eq_getElem?_getD, List.getElem?_set, hr, if_true,
        Option.getD_some, h', and_false, if_false]
      rw [if_neg (Ne.symm h')]
  · simp only [pixelAt, putPixel, List.getD_eq_getElem?_getD, List.getElem?_set]
    rw [if_neg (Ne.symm h), if_neg (by simp [h])]

/-- Setting a pixel keeps the framebuffer's shape. -/
theorem putPixel_shape {fb : List (List Bool)} {w h : Nat} (hl : fb.length = h)
    (hw : ∀ r ∈ fb, r.length = w) (row col : Nat) (b : Bool) :
    (putPixel fb row col b).length = h ∧ ∀ r ∈ putPixel fb row col b, r.length = w := by
  refine ⟨by simp [putPixel, hl], fun r hr => ?_⟩
  by_cases hrow : row < fb.length
  · rcases List.mem_or_eq_of_mem_set hr with hr | rfl
    · exact hw r hr
    · simp only [List.length_set, List.getD_eq_getElem?_getD, List.getElem?_eq_getElem hrow,
        Option.getD_some]
      exact hw _ (List.getElem_mem hrow)
  · rw [putPixel, List.set_eq_of_length_le (Nat.le_of_not_lt hrow)] at hr
    exact hw r hr

/-- The pixel a coordinate wraps onto, row first (R152). -/
def State.wrap (s : State) (p : Nat × Nat) : Nat × Nat := (p.2 % s.params.fbH, p.1 % s.params.fbW)

theorem FbShape.pos {s : State} (h : s.FbShape) : 0 < s.params.fbW ∧ 0 < s.params.fbH := by
  simpa [WellFormed.params, WellFormed.fbWidth, WellFormed.fbHeight] using h.1

theorem FbShape.wrap_lt {s : State} (h : s.FbShape) (p : Nat × Nat) :
    (s.wrap p).1 < s.coll.fb.length ∧ (s.wrap p).2 < (s.coll.fb.getD (s.wrap p).1 []).length := by
  obtain ⟨hw, hh⟩ := FbShape.pos h
  have hr : (s.wrap p).1 < s.coll.fb.length := by
    rw [h.2.1]; exact Nat.mod_lt _ hh
  refine ⟨hr, ?_⟩
  rw [List.getD_eq_getElem?_getD, List.getElem?_eq_getElem hr, Option.getD_some,
    h.2.2 _ (List.getElem_mem hr)]
  exact Nat.mod_lt _ hw

/-- `set_pixel` changes the framebuffer and the outputs, and answers the old pixel and the value (R152). -/
theorem collSetPixel_eq (x y : Nat) (b : Bool) (s : State) :
    collSetPixel x y b s =
      let p := s.wrap (x, y)
      let old := pixelAt s.coll.fb p.1 p.2
      ({ s with
          coll := { s.coll with fb := putPixel s.coll.fb p.1 p.2 (old ^^ b) }
          out := s.out ++ [.setPixel x y b (old && b)] }, old && b) := rfl

theorem collSetPixel_shape {s : State} (h : s.FbShape) (x y : Nat) (b : Bool) :
    (collSetPixel x y b s).1.FbShape :=
  ⟨h.1, putPixel_shape h.2.1 h.2.2 _ _ _⟩

/-- A run of calls changes the framebuffer and appends its calls to the outputs, nothing else (R163). -/
theorem drawCells_eq (cells : List (Nat × Nat)) (s : State) :
    ∃ fb calls, (drawCells cells s).1 =
        { s with coll := { s.coll with fb := fb }, out := s.out ++ calls } ∧
      ∀ e ∈ calls, ∃ px py hit, e = .setPixel px py true hit := by
  induction cells generalizing s with
  | nil => exact ⟨s.coll.fb, [], by simp [drawCells], by simp⟩
  | cons p cells ih =>
    obtain ⟨x, y⟩ := p
    obtain ⟨fb, calls, he, hc⟩ := ih (collSetPixel x y true s).1
    refine ⟨fb, .setPixel x y true (collSetPixel x y true s).2 :: calls, ?_, ?_⟩
    · simp only [drawCells]
      rw [he, collSetPixel_eq]
      simp only [List.append_assoc, List.cons_append, List.nil_append]
    · intro e h
      rcases List.mem_cons.mp h with rfl | h
      · exact ⟨_, _, _, rfl⟩
      · exact hc e h

/-- The first call of a run is answered on the state itself. -/
theorem callAnswer_zero (s : State) (p : Nat × Nat) (cells : List (Nat × Nat)) :
    s.callAnswer (p :: cells) 0 = (collSetPixel p.1 p.2 true s).2 := rfl

/-- A later call is answered on what the first one left. -/
theorem callAnswer_succ (s : State) (p : Nat × Nat) (cells : List (Nat × Nat)) (k : Nat) :
    s.callAnswer (p :: cells) (k + 1) = (collSetPixel p.1 p.2 true s).1.callAnswer cells k := rfl

/-- A run of calls outputs each call in order with its answer (R163; log 10). -/
theorem drawCells_out (cells : List (Nat × Nat)) (s : State) :
    (drawCells cells s).1.out = s.out ++ (List.range cells.length).map (fun k =>
      .setPixel (cells.getD k (0, 0)).1 (cells.getD k (0, 0)).2 true (s.callAnswer cells k)) := by
  induction cells generalizing s with
  | nil => exact (List.append_nil _).symm
  | cons p cells ih =>
    have h := ih (collSetPixel p.1 p.2 true s).1
    rw [List.length_cons, List.range_succ_eq_map, List.map_cons, List.map_map]
    refine h.trans ?_
    rw [collSetPixel_eq, List.append_assoc]
    rfl

/-- A run of calls reports a collision exactly when one of them answers true (R158). -/
theorem drawCells_hit (cells : List (Nat × Nat)) (s : State) :
    (drawCells cells s).2 = true ↔ ∃ k, k < cells.length ∧ s.callAnswer cells k = true := by
  induction cells generalizing s with
  | nil => simp [drawCells]
  | cons p cells ih =>
    simp only [drawCells, Bool.or_eq_true, ih]
    constructor
    · rintro (h | ⟨k, hk, h⟩)
      · exact ⟨0, Nat.succ_pos _, h⟩
      · exact ⟨k + 1, Nat.succ_lt_succ hk, h⟩
    · rintro ⟨k, hk, h⟩
      cases k with
      | zero => exact .inl h
      | succ k => exact .inr ⟨k, Nat.lt_of_succ_lt_succ hk, h⟩

/-- The set bits of a sprite, row by row. -/
theorem spriteCells_eq_flatMap (vx vy : Nat) (bs : List Byte) :
    spriteCells vx vy bs =
      (List.range bs.length).flatMap (fun r => rowCells vx (vy + r) (bs.getD r 0)) := by
  induction bs generalizing vy with
  | nil => rfl
  | cons b bs ih =>
    rw [List.length_cons, List.range_succ_eq_map, List.flatMap_cons, spriteCells, ih, List.flatMap_map]
    congr 1
    refine List.flatMap_congr fun r _ => ?_
    rw [Nat.add_right_comm]
    rfl

/-- The calls `execDrw` makes are those R158 lists. -/
theorem spriteCells_eq (s : State) (x y : Reg) (n : Nat) :
    spriteCells (s.getV x).toNat (s.getV y).toNat (s.bytesAtI n) = s.spriteCalls x y n := by
  rw [spriteCells_eq_flatMap, bytesAtI_length]
  refine List.flatMap_congr fun r hr => ?_
  rw [bytesAtI_getD s (List.mem_range.mp hr)]
  rfl

/-- A run of calls on pixels no two of which coincide toggles exactly them, and reports a collision
exactly when one of them was set (R158). -/
theorem drawCells_toggles {cells : List (Nat × Nat)} {s : State} (hs : s.FbShape)
    (hn : (cells.map s.wrap).Nodup) :
    (drawCells cells s).1.FbShape ∧
    (∀ r c, pixelAt (drawCells cells s).1.coll.fb r c =
      (pixelAt s.coll.fb r c ^^ decide ((r, c) ∈ cells.map s.wrap))) ∧
    ((drawCells cells s).2 = true ↔ ∃ p ∈ cells.map s.wrap, pixelAt s.coll.fb p.1 p.2 = true) := by
  induction cells generalizing s with
  | nil => simp [drawCells, hs]
  | cons q cells ih =>
    obtain ⟨x, y⟩ := q
    rw [List.map_cons, List.nodup_cons] at hn
    have hw : (collSetPixel x y true s).1.wrap = s.wrap := rfl
    obtain ⟨h1, h2, h3⟩ := ih (collSetPixel_shape hs x y true) (by rw [hw]; exact hn.2)
    have hlt := FbShape.wrap_lt hs (x, y)
    have hp : ∀ r c, pixelAt (collSetPixel x y true s).1.coll.fb r c =
        if (r, c) = s.wrap (x, y) then !pixelAt s.coll.fb r c else pixelAt s.coll.fb r c := by
      intro r c
      rw [collSetPixel_eq]
      simp only [Bool.xor_true]
      rw [pixelAt_putPixel hlt.1 hlt.2]
      by_cases h : (r, c) = s.wrap (x, y)
      · rw [if_pos h, if_pos h, ← h]
      · rw [if_neg h, if_neg h]
    rw [hw] at h2 h3
    refine ⟨h1, fun r c => ?_, ?_⟩
    · simp only [drawCells]
      rw [h2, hp, List.map_cons]
      by_cases h : (r, c) = s.wrap (x, y)
      · have hnot : (r, c) ∉ cells.map s.wrap := h ▸ hn.1
        simp [h, hn.1]
      · simp [h]
    · simp only [drawCells, Bool.or_eq_true, h3, List.map_cons, List.mem_cons, exists_eq_or_imp]
      have e : (collSetPixel x y true s).2 = pixelAt s.coll.fb (s.wrap (x, y)).1 (s.wrap (x, y)).2 := by
        rw [collSetPixel_eq]; simp
      rw [e]
      refine or_congr_right (exists_congr fun p => and_congr_right fun hpm => ?_)
      have hne : (p.1, p.2) ≠ s.wrap (x, y) := fun h => hn.1 (h ▸ hpm)
      rw [hp, if_neg hne]

end Sys2Proof.Machine
end

