-- ==== Sys2Proof/Laws/Decode.lean ====
section
/-! SUPPORT. The opcode map: its rows are pairwise disjoint (30_encoding.md R64), so the row a word
selects is the row the lookup finds. -/

namespace Sys2Proof

/-- No word selects both rows: they differ in a bit both fix (R64). -/
def OpRow.disjoint (p q : OpRow) : Bool := p.value &&& q.mask != q.value &&& p.mask

theorem OpRow.disjoint_sound {p q : OpRow} (h : p.disjoint q = true) {w : Word}
    (hp : p.selects w = true) : q.selects w = false := by
  simp only [OpRow.disjoint, OpRow.selects, bne_iff_ne, ne_eq, beq_iff_eq, beq_eq_false_iff_ne] at *
  intro hq
  apply h
  rw [← hp, ← hq, BitVec.and_assoc, BitVec.and_assoc, BitVec.and_comm p.mask]

/-- The 34 rows are pairwise disjoint (R64). -/
theorem opTable_disjoint : opTable.Pairwise (fun p q => p.disjoint q = true) := by decide

theorem opTable_length : opTable.length = 34 := by decide

/-- In a list of disjoint rows, the row that selects a word is the one the lookup finds. -/
theorem find_of_selects {l : List OpRow} (hl : l.Pairwise (fun p q => p.disjoint q = true))
    {r : OpRow} (hr : r ∈ l) {w : Word} (h : r.selects w = true) :
    l.find? (fun q => q.selects w) = some r := by
  induction l with
  | nil => simp at hr
  | cons p l ih =>
    rw [List.pairwise_cons] at hl
    rcases List.mem_cons.mp hr with rfl | hr
    · simp [h]
    · have hp : p.selects w = false := by
        by_contra hne
        have := OpRow.disjoint_sound (hl.1 r hr) (Bool.eq_true_of_not_eq_false hne)
        simp [this] at h
      simp [hp, ih hl.2 hr]

/-- A word that selects a row of the map decodes to what that row builds (R64). -/
theorem decodeWord_of_row {r : OpRow} (hr : r ∈ opTable) {w : Word} (h : r.selects w = true) :
    decodeWord w = .ok (r.build w) := by
  simp [decodeWord, find_of_selects opTable_disjoint hr h]

/-- A word that decodes selects a row of the map. -/
theorem row_of_decodeWord {w : Word} {i : Instr} (h : decodeWord w = .ok i) :
    ∃ r ∈ opTable, r.selects w = true ∧ r.build w = i := by
  unfold decodeWord at h
  split at h
  · rename_i r hr
    exact ⟨r, List.mem_of_find?_eq_some hr, by simpa using List.find?_some hr, by simpa using h⟩
  · simp at h

/-- A word that does not decode is unsupported (R67). -/
theorem decodeWord_error {w : Word} {e : DecodeError} (h : decodeWord w = .error e) :
    e = .unsupportedOpcode w := by
  unfold decodeWord at h
  split at h
  · simp at h
  · simpa using h.symm

/-- The two bytes of a word make it again (R46). -/
theorem composeWord_wordBytes (w : Word) :
    composeWord (w.extractLsb' 8 8) (w.extractLsb' 0 8) = w := by
  apply BitVec.eq_of_getLsbD_eq
  intro i hi
  simp only [composeWord, BitVec.getLsbD_append, BitVec.getLsbD_extractLsb']
  split
  · rename_i h
    simp [h]
  · rename_i h
    have e : 8 + (i - 8) = i := by omega
    simp [e, show i - 8 < 8 by omega]

/-- The bytes of a word decode as the word does, leaving what follows (R60). -/
theorem decode_wordBytes (w : Word) (rest : List Byte) :
    decode (wordBytes w ++ rest) = (decodeWord w).map (fun i => (i, rest)) := by
  simp only [wordBytes, List.cons_append, List.nil_append, decode, composeWord_wordBytes]
  cases decodeWord w <;> rfl

/-- The number two bytes compose to (R60). -/
theorem composeWord_toNat (hi lo : Byte) : (composeWord hi lo).toNat = 256 * hi.toNat + lo.toNat := by
  simp only [composeWord, BitVec.toNat_append]
  have := lo.isLt
  rw [Nat.shiftLeft_eq, Nat.mul_comm, ← Nat.two_pow_add_eq_or_of_lt (by omega)]

/-! ## Fields and forms as numbers (R61, R63) -/

theorem familyOf_toNat (w : Word) : (familyOf w).toNat = w.toNat / 4096 % 16 := by
  simp [familyOf, Nat.shiftRight_eq_div_pow]

theorem fieldX_val (w : Word) : (fieldX w).val = w.toNat / 256 % 16 := by
  simp [fieldX, Nat.shiftRight_eq_div_pow]

theorem fieldY_val (w : Word) : (fieldY w).val = w.toNat / 16 % 16 := by
  simp [fieldY, Nat.shiftRight_eq_div_pow]

theorem fieldN_val (w : Word) : (fieldN w).val = w.toNat % 16 := by
  simp [fieldN]

theorem fieldNn_toNat (w : Word) : (fieldNn w).toNat = w.toNat % 256 := by
  simp [fieldNn]

theorem fieldNnn_toNat (w : Word) : (fieldNnn w).toNat = w.toNat % 4096 := by
  simp [fieldNnn]

theorem nibble_toNat (k : Fin 16) : (nibble k).toNat = k.val := rfl

theorem formNnn_toNat (f : BitVec 4) (nnn : Imm12) :
    (formNnn f nnn).toNat = f.toNat * 4096 + nnn.toNat := by
  show (f ++ nnn).toNat = _
  rw [BitVec.toNat_append, ← Nat.shiftLeft_add_eq_or_of_lt nnn.isLt, Nat.shiftLeft_eq]

theorem formXnn_toNat (f : BitVec 4) (x : Reg) (nn : Byte) :
    (formXnn f x nn).toNat = f.toNat * 4096 + x.val * 256 + nn.toNat := by
  show (f ++ nibble x ++ nn).toNat = _
  rw [BitVec.toNat_append, BitVec.toNat_append, ← Nat.shiftLeft_add_eq_or_of_lt nn.isLt,
    ← Nat.shiftLeft_add_eq_or_of_lt (nibble x).isLt]
  simp only [Nat.shiftLeft_eq, nibble_toNat]
  omega

theorem formXyn_toNat (f : BitVec 4) (x y : Reg) (n : BitVec 4) :
    (formXyn f x y n).toNat = f.toNat * 4096 + x.val * 256 + y.val * 16 + n.toNat := by
  show (f ++ nibble x ++ nibble y ++ n).toNat = _
  rw [BitVec.toNat_append, BitVec.toNat_append, BitVec.toNat_append,
    ← Nat.shiftLeft_add_eq_or_of_lt n.isLt, ← Nat.shiftLeft_add_eq_or_of_lt (nibble y).isLt,
    ← Nat.shiftLeft_add_eq_or_of_lt (nibble x).isLt]
  simp only [Nat.shiftLeft_eq, nibble_toNat]
  omega

/-! ## What a row's mask leaves of a form (R64) -/

theorem and_ones (b : BitVec 4) : b &&& 15#4 = b := BitVec.and_allOnes

theorem formNnn_mask (f : BitVec 4) (nnn : Imm12) : formNnn f nnn &&& 0xF000 = formNnn f 0 := by
  have h := BitVec.and_append (x₁ := f) (x₂ := 15#4) (y₁ := nnn) (y₂ := 0#12)
  rw [BitVec.and_zero, and_ones] at h
  exact h

theorem formXnn_mask (f : BitVec 4) (x : Reg) (nn : Byte) :
    formXnn f x nn &&& 0xF000 = formXnn f 0 0 := by
  have h1 := BitVec.and_append (x₁ := f) (x₂ := 15#4) (y₁ := nibble x) (y₂ := 0#4)
  have h2 := BitVec.and_append (x₁ := f ++ nibble x) (x₂ := 15#4 ++ 0#4) (y₁ := nn) (y₂ := 0#8)
  rw [h1, BitVec.and_zero, BitVec.and_zero, and_ones] at h2
  exact h2

theorem formXnn_maskByte (f : BitVec 4) (x : Reg) (nn : Byte) :
    formXnn f x nn &&& 0xF0FF = formXnn f 0 nn := by
  have h1 := BitVec.and_append (x₁ := f) (x₂ := 15#4) (y₁ := nibble x) (y₂ := 0#4)
  have h2 := BitVec.and_append (x₁ := f ++ nibble x) (x₂ := 15#4 ++ 0#4) (y₁ := nn) (y₂ := 0xFF#8)
  have e : nn &&& 0xFF#8 = nn := BitVec.and_allOnes
  rw [h1, BitVec.and_zero, and_ones, e] at h2
  exact h2

theorem formXyn_mask (f : BitVec 4) (x y : Reg) (n : BitVec 4) :
    formXyn f x y n &&& 0xF000 = formXyn f 0 0 0 := by
  have h1 := BitVec.and_append (x₁ := f) (x₂ := 15#4) (y₁ := nibble x) (y₂ := 0#4)
  have h2 := BitVec.and_append (x₁ := f ++ nibble x) (x₂ := 15#4 ++ 0#4) (y₁ := nibble y) (y₂ := 0#4)
  have h3 := BitVec.and_append (x₁ := f ++ nibble x ++ nibble y) (x₂ := 15#4 ++ 0#4 ++ 0#4)
    (y₁ := n) (y₂ := 0#4)
  rw [h2, h1, BitVec.and_zero, BitVec.and_zero, BitVec.and_zero, and_ones] at h3
  exact h3

theorem formXyn_maskN (f : BitVec 4) (x y : Reg) (n : BitVec 4) :
    formXyn f x y n &&& 0xF00F = formXyn f 0 0 n := by
  have h1 := BitVec.and_append (x₁ := f) (x₂ := 15#4) (y₁ := nibble x) (y₂ := 0#4)
  have h2 := BitVec.and_append (x₁ := f ++ nibble x) (x₂ := 15#4 ++ 0#4) (y₁ := nibble y) (y₂ := 0#4)
  have h3 := BitVec.and_append (x₁ := f ++ nibble x ++ nibble y) (x₂ := 15#4 ++ 0#4 ++ 0#4)
    (y₁ := n) (y₂ := 15#4)
  rw [h2, h1, BitVec.and_zero, BitVec.and_zero, and_ones, and_ones] at h3
  exact h3

end Sys2Proof
end

