-- ==== Sys2Proof/Laws/Scheduler.lean ====
section
/-! SUPPORT. What a fetch, an instruction tick, a timer tick and a step can do, each said once. -/

namespace Sys2Proof.Machine

/-! ## Fetch (R60) -/

theorem fetch_eq (s : State) :
    s.fetch =
      if s.pc.toNat + 1 < Config.memSize then
        .ok (composeWord (s.byteAt s.pc.toNat) (s.byteAt (s.pc.toNat + 1)))
      else .error (max s.pc.toNat Config.memSize) := by
  simp only [State.fetch, Memory.read_eq]
  by_cases h1 : s.pc.toNat + 1 < Config.memSize
  · have h0 : s.pc.toNat < Config.memSize := by omega
    simp only [h0, h1, if_true]
    rfl
  · simp only [h1, if_false]
    by_cases h0 : s.pc.toNat < Config.memSize
    · have e : max s.pc.toNat Config.memSize = s.pc.toNat + 1 := by omega
      simp [h0, e]
    · have e : max s.pc.toNat Config.memSize = s.pc.toNat := by omega
      simp [h0, e]

/-- A fetch succeeds only below 0xFFF (R45). -/
theorem pc_of_fetch {s : State} {w : Word} (h : s.fetch = .ok w) : s.pc.toNat ≤ 0xFFE := by
  rw [fetch_eq] at h
  split at h
  · rename_i hlt
    simp only [Config.memSize] at hlt
    omega
  · simp at h

/-! ## The instruction tick (R80) -/

/-- With the default `TIME` the meaning of an instruction is what `exec` dispatches to. -/
@[simp] theorem execute_eq (i : Instr) (s : State) : execute i s = exec i s := rfl

/-- An instruction tick fails to fetch, executes an instruction, or diagnoses an unsupported word. -/
theorem instrTick_cases {s t : State} (h : instrTick s = .next t) :
    (∃ a, s.fetch = .error a ∧ t = s.setFault ⟨.memoryFault, s.pc, none, some a⟩) ∨
    (∃ w i, s.fetch = .ok w ∧ decodeWord w = .ok i ∧ exec i s = .next t) ∨
    (∃ w, s.fetch = .ok w ∧ decodeWord w = .error (.unsupportedOpcode w) ∧
      t = (s.emit (.diagUnsupportedOpcode w s.pc)).advance) := by
  unfold instrTick at h
  split at h
  · rename_i a ha
    rw [raise_eq] at h
    exact .inl ⟨a, ha, by simpa using h.symm⟩
  · rename_i w hw
    unfold execWord at h
    split at h
    · rename_i i hi
      exact .inr (.inl ⟨w, i, hw, hi, h⟩)
    · rename_i e he
      simp only [execUnsupported, Host.Outcome.next.injEq] at h
      exact .inr (.inr ⟨w, hw, decodeWord_error he ▸ he, h.symm⟩)

/-! ## The timer tick (R183) -/

theorem decayed_toNat (b : Byte) : (decayed b).toNat = b.toNat - 1 := by
  unfold decayed
  split
  · rename_i h
    simp [h]
  · rename_i h
    have hpos : b.toNat ≠ 0 := fun e => h (BitVec.eq_of_toNat_eq e)
    have := b.isLt
    have e : (1 : Byte).toNat = 1 := rfl
    rw [BitVec.toNat_sub, e]
    omega

/-- A timer tick writes DT, ST, and, if it signals, the audio count and the outputs (R183). -/
theorem timerTick_eq (s : State) :
    timerTick s = { s with
      dt := decayed s.dt
      st := decayed s.st
      coll := { s.coll with audio := if s.st = 0 then s.coll.audio else s.coll.audio + 1 }
      out := if s.st = 0 then s.out else s.out ++ [.signalAudio] } := by
  unfold timerTick
  by_cases h : s.st = 0
  · rw [if_pos h, if_pos h, if_pos h]
    rfl
  · rw [if_neg h, if_neg h, if_neg h]
    rfl

/-- The timer half of an invocation: nothing, or a timer tick and its timestamp (R184). -/
theorem timerCheck_cases (now : Time) (ran : Bool) (s : State) :
    timerCheck now ran s = s ∨
      (s.params.pTimer ≤ now - s.tTimer ∧ timerCheck now ran s = (timerTick s).setTTimer now) := by
  unfold timerCheck
  split
  · rename_i h
    exact .inr ⟨h.2, rfl⟩
  · exact .inl rfl

theorem timerCheck_of_not_elapsed {now : Time} {ran : Bool} {s : State}
    (h : now - s.tTimer < s.params.pTimer) : timerCheck now ran s = s := by
  unfold timerCheck
  exact if_neg (fun hc => absurd hc.2 (Nat.not_le_of_lt h))

theorem timerCheck_of_elapsed {now : Time} {ran : Bool} {s : State}
    (hc : s.wait = none ∨ ran = true ∨ s.params.keyWait = .running)
    (h : s.params.pTimer ≤ now - s.tTimer) :
    timerCheck now ran s = (timerTick s).setTTimer now :=
  if_pos ⟨hc, h⟩

/-! ## Any `TIME` (R4)

Nothing here fixes the type of time; `step` is the step of the default one. -/

theorem step_eq (s : State) : step s = stepInput s := rfl

/-- Taking an input and reading the time change the pending inputs, their count and the clock alone. -/
theorem readTime_eq {T : Type} (s : State T) (now : T) :
    ∃ l n, s.takeInput.setClock now = { s with inputs := l, envCount := n, clock := now } := by
  unfold State.takeInput
  split
  · exact ⟨_, s.envCount, rfl⟩
  · exact ⟨s.inputs, s.envCount + 1, rfl⟩

/-- A step on an invocation of a core that is not halted is `Invoke` at the time read (R184). -/
theorem stepInput_invoke {T : Type} [LE T] [DecidableLE T] [Sub T] [Add T] {s : State T} {d : T}
    (hf : s.fault = none) (hi : s.nextInput = .invoke d) :
    stepInput s = invoke (s.clock + d) (s.takeInput.setClock (s.clock + d)) := by
  have hc : s.takeInput.clock = s.clock := by
    unfold State.takeInput
    split <;> rfl
  unfold stepInput
  rw [hf, hi, ← hc]
  rfl

/-! ## Taking an input -/

/-- Taking an input changes the pending inputs and their count alone. -/
theorem takeInput_eq (s : State) :
    ∃ l n, s.takeInput = { s with inputs := l, envCount := n } := by
  unfold State.takeInput
  split
  · exact ⟨_, s.envCount, rfl⟩
  · exact ⟨s.inputs, s.envCount + 1, rfl⟩

/-! ## The step -/

/-- One step: a halted core stays; a key is delivered; the user moves a key; or an invocation runs the
timer half alone, or an instruction tick and what follows it (R184, R188). -/
theorem step_cases {s t : State} (h : step s = .next t) :
    (s.fault ≠ none ∧ t = s) ∨
    (s.fault = none ∧ ∃ k, s.nextInput = .keyDelivered k ∧ t = keyDelivered k s.takeInput) ∨
    (s.fault = none ∧ ∃ k p, s.nextInput = .keyState k p ∧ t = userKey k p s.takeInput) ∨
    (s.fault = none ∧ ∃ d, s.nextInput = .invoke d ∧
      ((¬(s.wait = none ∧ s.params.pInstr ≤ s.clock + d - s.tInstr) ∧
          t = timerCheck (s.clock + d) false (s.takeInput.setClock (s.clock + d))) ∨
        (s.wait = none ∧ s.params.pInstr ≤ s.clock + d - s.tInstr ∧
          ∃ u, instrTick (s.takeInput.setClock (s.clock + d)) = .next u ∧
            t = afterInstr (s.clock + d) u))) := by
  unfold step stepInput at h
  by_cases hf : s.fault = none
  · simp only [hf, Option.isSome_none, Bool.false_eq_true, if_false] at h
    obtain ⟨l, n, ht⟩ := takeInput_eq s
    cases hi : s.nextInput with
    | keyDelivered k =>
      rw [hi] at h
      exact .inr (.inl ⟨hf, k, rfl, by simpa [deliver] using h.symm⟩)
    | keyState k p =>
      rw [hi] at h
      exact .inr (.inr (.inl ⟨hf, k, p, rfl, by simpa [deliver] using h.symm⟩))
    | invoke d =>
      rw [hi] at h
      refine .inr (.inr (.inr ⟨hf, d, rfl, ?_⟩))
      have hc : s.takeInput.clock = s.clock := by rw [ht]
      have hf' : (s.takeInput.setClock (s.clock + d)).fault = none := by rw [ht]; exact hf
      have hw : (s.takeInput.setClock (s.clock + d)).wait = s.wait := by rw [ht]; rfl
      have hp : (s.takeInput.setClock (s.clock + d)).params = s.params := by rw [ht]; rfl
      have hti : (s.takeInput.setClock (s.clock + d)).tInstr = s.tInstr := by rw [ht]; rfl
      simp only [deliver, hc, invoke, hf', hw, hp, hti, Option.isSome_none, Bool.false_eq_true,
        if_false] at h
      split at h
      · rename_i hcond
        refine .inr ⟨hcond.1, hcond.2, ?_⟩
        cases hu : instrTick (s.takeInput.setClock (s.clock + d)) with
        | next u =>
          rw [hu] at h
          exact ⟨u, rfl, by simpa using h.symm⟩
        | fault r => rw [hu] at h; simp [onNext] at h
        | refused r => rw [hu] at h; simp [onNext] at h
      · rename_i hcond
        exact .inl ⟨hcond, by simpa using h.symm⟩
  · have : s.fault.isSome = true := Option.isSome_iff_ne_none.mpr hf
    simp only [this, if_true, Host.Outcome.next.injEq] at h
    exact .inl ⟨hf, h.symm⟩

end Sys2Proof.Machine
end

