-- ==== Sys2Proof/Laws/Exec.lean ====
section
/-! SUPPORT. The instructions that can fault, each as one choice between its effect and its fault, and the
shape of every fault (60_exceptions.md R176, R177). -/

namespace Sys2Proof.Machine

/-- `2nnn` (R84). -/
theorem execCall_eq (nnn : Imm12) (s : State) :
    execCall nnn s = if s.sp = s.params.stackDepth
      then .next (s.setFault ⟨.stackOverflow, s.pc, some (encode (.call nnn)), none⟩)
      else .next ((s.setSlot s.sp (s.pc + 2) (s.sp + 1)).setPc (zextNnn nnn)) := by
  unfold execCall
  split
  · rename_i u hu
    simp only [State.push] at hu
    split at hu <;> simp_all
  · rename_i hu
    simp only [State.push] at hu
    split at hu <;> simp_all [raiseIn_eq]

/-- `00EE` (R85). -/
theorem execRet_eq (s : State) :
    execRet s = if s.sp = 0
      then .next (s.setFault ⟨.stackUnderflow, s.pc, some 0x00EE, none⟩)
      else .next ((s.setSlot (s.sp - 1) 0 (s.sp - 1)).setPc (s.stack.getD (s.sp - 1) 0)) := by
  unfold execRet
  by_cases h : s.sp = 0
  · rw [pop_of_zero h, if_pos h]
    rfl
  · rw [pop_of_pos (Nat.pos_of_ne_zero h), if_neg h]

/-- An access that lies in memory, or the address its fault names (R126). -/
theorem accessFault_eq (s : State) (len : Nat) :
    s.accessFault len = if 0 < len ∧ Config.memSize < s.i.toNat + len
      then some (max s.i.toNat Config.memSize) else none := by
  by_cases h : 0 < len ∧ Config.memSize < s.i.toNat + len
  · rw [if_pos h]
    exact accessFault_some.mpr ⟨h.1, h.2, rfl⟩
  · rw [if_neg h]
    exact accessFault_none.mpr (by omega)

/-- What an instruction's faults look like: the state it began in with FAULT set, and nothing else done;
any other answer sets no fault (R176, R177). -/
theorem exec_faults {i : Instr} {s t : State} (h : exec i s = .next t) (hf : s.fault = none) :
    (∃ c a, t = s.setFault ⟨c, s.pc, some (encode i), a⟩) ∨ t.fault = none := by
  cases i
  case call n =>
    simp only [exec, execCall] at h
    split at h
    · rename_i u hu
      simp only [State.push] at hu
      split at hu <;> simp at hu
      subst hu
      simp at h; subst h; right; simp [hf]
    · simp only [raiseIn_eq, Host.Outcome.next.injEq] at h; exact .inl ⟨_, _, h.symm⟩
  case ret =>
    simp only [exec, execRet] at h
    split at h
    · rename_i u hu
      simp only [State.pop] at hu
      split at hu <;> simp at hu
      obtain ⟨-, rfl⟩ := hu
      simp at h; subst h; right; simp [hf]
    · simp only [raiseIn_eq, Host.Outcome.next.injEq] at h; exact .inl ⟨_, _, h.symm⟩
  case drw x y n =>
    simp only [exec, execDrw] at h
    split at h
    · simp only [raiseIn_eq, Host.Outcome.next.injEq] at h; exact .inl ⟨_, _, h.symm⟩
    · obtain ⟨fb, calls, he, -⟩ := drawCells_eq (spriteCells (s.getV x).toNat (s.getV y).toNat (s.bytesAtI n.val)) s
      rw [he] at h
      simp only [Host.Outcome.next.injEq] at h; subst h
      right; simp [hf]
  case addIVx x =>
    simp only [exec, execAddIVx] at h
    split at h <;> simp only [raiseIn_eq, Host.Outcome.next.injEq] at h
    · exact .inl ⟨_, _, h.symm⟩
    · subst h; right; simp [hf]
  case ldBVx x =>
    simp only [exec, execLdBVx] at h
    split at h <;> simp only [raiseIn_eq, Host.Outcome.next.injEq] at h
    · exact .inl ⟨_, _, h.symm⟩
    · subst h; right; simp [hf, State.storeAtI]
  case ldMiVx x =>
    simp only [exec, execLdMiVx] at h
    split at h <;> simp only [raiseIn_eq, Host.Outcome.next.injEq] at h
    · exact .inl ⟨_, _, h.symm⟩
    · subst h; right; simp [hf, State.storeAtI]
  case ldVxMi x =>
    simp only [exec, execLdVxMi] at h
    split at h <;> simp only [raiseIn_eq, Host.Outcome.next.injEq] at h
    · exact .inl ⟨_, _, h.symm⟩
    · subst h; right; rw [loadRegs_eq]; simp [hf]
  case skp x =>
    simp only [exec, execSkp, Host.Outcome.next.injEq, skipIf_eq, collIsKeyPressed] at h; subst h
    split <;> simp [hf]
  case sknp x =>
    simp only [exec, execSknp, Host.Outcome.next.injEq, skipIf_eq, collIsKeyPressed] at h; subst h
    split <;> simp [hf]
  all_goals
    simp only [exec, Host.Outcome.next.injEq, execCls, execJp, execJpV0, execSeVxNn, execSneVxNn, execSeVxVy, execSneVxVy, execLdVxNn, execAddVxNn, execLdVxVy, execOr, execAnd, execXor, execAddVxVy, execSub, execSubn, execShr, execShl, execLdINnn, execLdFVx, execRnd, execLdVxDt, execLdDtVx, execLdStVx, execLdVxK] at h
    subst h
    simp [State.setResultAndFlag, skipIf_eq, collClear, collNextKey, hf]

/-- The same of an instruction tick (R175, R176). -/
theorem instrTick_faults {s t : State} (h : instrTick s = .next t) (hf : s.fault = none) :
    (∃ r, r.pc = s.pc ∧ t = s.setFault r) ∨ t.fault = none := by
  rcases instrTick_cases h with ⟨a, -, rfl⟩ | ⟨w, i, -, -, hx⟩ | ⟨w, -, -, rfl⟩
  · exact .inl ⟨_, rfl, rfl⟩
  · rcases exec_faults hx hf with ⟨c, a, rfl⟩ | h
    · exact .inl ⟨_, rfl, rfl⟩
    · exact .inr h
  · right; simp [hf]

/-- The timer half of an invocation sets no fault (R183). -/
@[simp] theorem timerCheck_fault (now : Time) (ran : Bool) (s : State) : (timerCheck now ran s).fault = s.fault := by
  rcases timerCheck_cases now ran s with h | ⟨-, h⟩ <;> rw [h]
  rw [timerTick_eq]; rfl

end Sys2Proof.Machine
end

