-- ==== Sys2Proof/Laws/Load.lean ====
section
/-! SUPPORT. What construction leaves in memory, for any font, program, seed and time
(70_reset_and_hazards.md R200, R202). -/

namespace Sys2Proof.Machine

variable {T : Type}

theorem fontTable_length (p : Config.Params T) : p.fontTable.length = 80 := by
  simp [Config.Params.fontTable, Config.glyph0]

/-- Above the font table an unlisted address reads 0 (R31). -/
theorem initialByte_of_le {a : Nat} (h : 80 ≤ a) : Memory.initialByte a = 0 := by
  rw [Memory.initialByte, List.getD_eq_getElem?_getD,
    List.getElem?_eq_none (by rw [fontTable_length]; exact h), Option.getD_none]

/-- A freshly constructed memory is in canonical form. -/
theorem fresh_mem_wf (p : Config.Params T) (seed : Nat) (t0 : T) : (State.fresh p seed t0).mem.wf :=
  Memory.writeBytes_wf Memory.nil_wf (by rw [fontTable_length]; decide)

/-- A freshly constructed memory holds the font table of the parameters and zero elsewhere (R31, R42). -/
theorem fresh_byteAt (p : Config.Params T) (seed : Nat) (t0 : T) (a : Nat) :
    (State.fresh p seed t0).byteAt a = if a < 80 then p.fontTable.getD a 0 else 0 := by
  have h := Memory.byteAt_writeBytes Memory.nil_wf (base := Config.fontBase) (bs := p.fontTable)
    (by rw [fontTable_length]; decide) a
  rw [fontTable_length] at h
  simp only [Config.fontBase, Nat.zero_le, true_and, Nat.zero_add, Nat.sub_zero] at h
  refine h.trans ?_
  split
  · rfl
  · rename_i ha
    exact initialByte_of_le (Nat.le_of_not_lt ha)

/-- Program load writes memory alone, or fails (R202). -/
theorem load_eq (prog : List Byte) (s : State T) :
    s.load prog = if prog.length ≤ Config.progMax
      then .ok (s.setMem (s.mem.writeBytes Config.progBase prog)) else .error .imageTooLong := rfl

/-- A byte after a program image was copied into a memory in canonical form (R202). -/
theorem load_byteAt {s t : State T} (hm : s.mem.wf) {prog : List Byte} (h : s.load prog = .ok t) (a : Nat) :
    t.byteAt a =
      if 0x200 ≤ a ∧ a < 0x200 + prog.length then prog.getD (a - 0x200) 0 else s.byteAt a := by
  rw [load_eq] at h
  split at h
  · rename_i hl
    obtain rfl := Except.ok.inj h
    refine Memory.byteAt_writeBytes hm (base := 0x200) ?_ a
    simp only [Config.progMax, Config.memSize] at *
    omega
  · simp at h

end Sys2Proof.Machine
end

