-- ==== Sys2Proof/Laws/PerInstr.lean ====
section
/-! SUPPORT. The family EncodesInRow: the word of every instruction selects the row of the opcode map that
builds that kind of instruction (30_encoding.md R64, R65). -/

namespace Sys2Proof.Laws.EncodesInRow

/-- Which row of the map (from 0) is the instruction's. -/
def rowIndex : Instr → Fin 34
  | .cls => 0
  | .ret => 1
  | .jp _ => 2
  | .call _ => 3
  | .seVxNn _ _ => 4
  | .sneVxNn _ _ => 5
  | .seVxVy _ _ => 6
  | .ldVxNn _ _ => 7
  | .addVxNn _ _ => 8
  | .ldVxVy _ _ => 9
  | .or _ _ => 10
  | .and _ _ => 11
  | .xor _ _ => 12
  | .addVxVy _ _ => 13
  | .sub _ _ => 14
  | .shr _ _ => 15
  | .subn _ _ => 16
  | .shl _ _ => 17
  | .sneVxVy _ _ => 18
  | .ldINnn _ => 19
  | .jpV0 _ => 20
  | .rnd _ _ => 21
  | .drw _ _ _ => 22
  | .skp _ => 23
  | .sknp _ => 24
  | .ldVxDt _ => 25
  | .ldVxK _ => 26
  | .ldDtVx _ => 27
  | .ldStVx _ => 28
  | .addIVx _ => 29
  | .ldFVx _ => 30
  | .ldBVx _ => 31
  | .ldMiVx _ => 32
  | .ldVxMi _ => 33

/-- The row of an instruction. -/
def row (i : Instr) : OpRow := opTable[rowIndex i]

theorem row_mem (i : Instr) : row i ∈ opTable := List.getElem_mem _

/-- The encoding selects the instruction's own row. -/
def Statement (i : Instr) : Prop := (row i).selects (encode i) = true

theorem of_eq {i : Instr} (h : encode i &&& (row i).mask = (row i).value) : Statement i := by
  simp [Statement, OpRow.selects, h]

theorem cls : Statement (.cls) := of_eq (by decide)
theorem ret : Statement (.ret) := of_eq (by decide)
theorem jp (nnn : Imm12) : Statement (.jp nnn) := of_eq (formNnn_mask _ nnn)
theorem call (nnn : Imm12) : Statement (.call nnn) := of_eq (formNnn_mask _ nnn)
theorem seVxNn (x : Reg) (nn : Byte) : Statement (.seVxNn x nn) := of_eq (formXnn_mask _ x nn)
theorem sneVxNn (x : Reg) (nn : Byte) : Statement (.sneVxNn x nn) := of_eq (formXnn_mask _ x nn)
theorem seVxVy (x y : Reg) : Statement (.seVxVy x y) := of_eq (formXyn_maskN _ x y _)
theorem ldVxNn (x : Reg) (nn : Byte) : Statement (.ldVxNn x nn) := of_eq (formXnn_mask _ x nn)
theorem addVxNn (x : Reg) (nn : Byte) : Statement (.addVxNn x nn) := of_eq (formXnn_mask _ x nn)
theorem ldVxVy (x y : Reg) : Statement (.ldVxVy x y) := of_eq (formXyn_maskN _ x y _)
theorem or (x y : Reg) : Statement (.or x y) := of_eq (formXyn_maskN _ x y _)
theorem and (x y : Reg) : Statement (.and x y) := of_eq (formXyn_maskN _ x y _)
theorem xor (x y : Reg) : Statement (.xor x y) := of_eq (formXyn_maskN _ x y _)
theorem addVxVy (x y : Reg) : Statement (.addVxVy x y) := of_eq (formXyn_maskN _ x y _)
theorem sub (x y : Reg) : Statement (.sub x y) := of_eq (formXyn_maskN _ x y _)
theorem shr (x y : Reg) : Statement (.shr x y) := of_eq (formXyn_maskN _ x y _)
theorem subn (x y : Reg) : Statement (.subn x y) := of_eq (formXyn_maskN _ x y _)
theorem shl (x y : Reg) : Statement (.shl x y) := of_eq (formXyn_maskN _ x y _)
theorem sneVxVy (x y : Reg) : Statement (.sneVxVy x y) := of_eq (formXyn_maskN _ x y _)
theorem ldINnn (nnn : Imm12) : Statement (.ldINnn nnn) := of_eq (formNnn_mask _ nnn)
theorem jpV0 (nnn : Imm12) : Statement (.jpV0 nnn) := of_eq (formNnn_mask _ nnn)
theorem rnd (x : Reg) (nn : Byte) : Statement (.rnd x nn) := of_eq (formXnn_mask _ x nn)
theorem drw (x y : Reg) (n : Fin 16) : Statement (.drw x y n) := of_eq (formXyn_mask _ x y _)
theorem skp (x : Reg) : Statement (.skp x) := of_eq (formXnn_maskByte _ x _)
theorem sknp (x : Reg) : Statement (.sknp x) := of_eq (formXnn_maskByte _ x _)
theorem ldVxDt (x : Reg) : Statement (.ldVxDt x) := of_eq (formXnn_maskByte _ x _)
theorem ldVxK (x : Reg) : Statement (.ldVxK x) := of_eq (formXnn_maskByte _ x _)
theorem ldDtVx (x : Reg) : Statement (.ldDtVx x) := of_eq (formXnn_maskByte _ x _)
theorem ldStVx (x : Reg) : Statement (.ldStVx x) := of_eq (formXnn_maskByte _ x _)
theorem addIVx (x : Reg) : Statement (.addIVx x) := of_eq (formXnn_maskByte _ x _)
theorem ldFVx (x : Reg) : Statement (.ldFVx x) := of_eq (formXnn_maskByte _ x _)
theorem ldBVx (x : Reg) : Statement (.ldBVx x) := of_eq (formXnn_maskByte _ x _)
theorem ldMiVx (x : Reg) : Statement (.ldMiVx x) := of_eq (formXnn_maskByte _ x _)
theorem ldVxMi (x : Reg) : Statement (.ldVxMi x) := of_eq (formXnn_maskByte _ x _)

end Sys2Proof.Laws.EncodesInRow
end

