-- ==== Sys2Proof/Tests/Slice0.lean ====
section
/-! SUPPORT. Tests: the smoke test of the checks, the decoding of every constructor by a word written from
30_encoding.md R65, vectors of 95_test_vectors.md, and the witnesses that meet each obligation's
hypotheses. -/

namespace Sys2Proof.Tests

open Sys2Proof Sys2Proof.Machine

/-! ## Helpers -/

/-- The state an answer goes on with. -/
def nextState : Result → State
  | .next t => t
  | .fault _ => State.reset
  | .refused _ => State.reset

/-- A small state: pc, I, and some registers. -/
def start (pc i : Word) (vs : List (Reg × Byte)) : State :=
  { (State.reset.loadRegs vs) with pc := pc, i := i }

/-- A small state with one input queued. -/
def withInput (e : Config.Input) (s : State) : State := { s with inputs := [e] }

/-- A small state with one word stored at pc. -/
def withWord (w : Word) (s : State) : State := s.setMem (s.mem.writeBytes s.pc.toNat (wordBytes w))

/-- What an instruction makes of a state. -/
def ran (i : Instr) (s : State) : State := nextState (exec i s)

/-- The state after a step on one instruction word. -/
def stepped (w : Nat) (s : State) : State := nextState (step (s.withFetchWord 16 w))

/-- The cause of a fault and the address it names. -/
def faultOf (s : State) : Option (Fault × Option Nat) := s.fault.map (fun r => (r.cause, r.addr))

/-! ## Ill-formed terms are refused -/

theorem test_wf_image_too_long : WellFormed.image (List.replicate 3585 0) = false := by
  rw [WellFormed.image, List.length_replicate]; decide

theorem test_wf_image_longest : WellFormed.image (List.replicate 3584 0) = true := by
  rw [WellFormed.image, List.length_replicate]; decide

theorem test_wf_no_columns : WellFormed.fbWidth { Config.defaultParams with fbW := 0 } = false := by decide

theorem test_wf_no_rows : WellFormed.fbHeight { Config.defaultParams with fbH := 0 } = false := by decide

theorem test_wf_params_refused : WellFormed.params { Config.defaultParams with fbH := 0 } = false := by decide

theorem test_wf_default_params : WellFormed.params Config.defaultParams = true := by decide

/-! ## Decoding, each constructor by a word written out from R65 -/

theorem test_decode_flow :
    decodeWord 0b0000000011100000 = .ok .cls ∧ decodeWord 0b0000000011101110 = .ok .ret ∧
    decodeWord 0b0001_1010_1011_1100 = .ok (.jp 0xABC) ∧ decodeWord 0b0010_0010_0000_1100 = .ok (.call 0x20C) ∧
    decodeWord 0b1011_0011_0000_0000 = .ok (.jpV0 0x300) := by decide

theorem test_decode_skips :
    decodeWord 0b0011_0011_0010_1010 = .ok (.seVxNn 3 0x2A) ∧
    decodeWord 0b0100_0011_0010_1010 = .ok (.sneVxNn 3 0x2A) ∧
    decodeWord 0b0101_1010_1011_0000 = .ok (.seVxVy 0xA 0xB) ∧
    decodeWord 0b1001_1010_1011_0000 = .ok (.sneVxVy 0xA 0xB) := by decide

theorem test_decode_loads :
    decodeWord 0b0110_1010_1111_1111 = .ok (.ldVxNn 0xA 0xFF) ∧
    decodeWord 0b0111_0000_0000_0101 = .ok (.addVxNn 0 5) ∧
    decodeWord 0b1000_1010_1011_0000 = .ok (.ldVxVy 0xA 0xB) := by decide

theorem test_decode_logic :
    decodeWord 0b1000_1010_1011_0001 = .ok (.or 0xA 0xB) ∧ decodeWord 0b1000_1010_1011_0010 = .ok (.and 0xA 0xB) ∧
    decodeWord 0b1000_1010_1011_0011 = .ok (.xor 0xA 0xB) := by decide

theorem test_decode_arithmetic :
    decodeWord 0b1000_1010_1011_0100 = .ok (.addVxVy 0xA 0xB) ∧
    decodeWord 0b1000_1010_1011_0101 = .ok (.sub 0xA 0xB) ∧
    decodeWord 0b1000_1010_1011_0110 = .ok (.shr 0xA 0xB) ∧
    decodeWord 0b1000_1010_1011_0111 = .ok (.subn 0xA 0xB) ∧
    decodeWord 0b1000_1010_1011_1110 = .ok (.shl 0xA 0xB) := by decide

theorem test_decode_index_random_draw :
    decodeWord 0b1010_0010_1111_0000 = .ok (.ldINnn 0x2F0) ∧
    decodeWord 0b1100_0001_0000_1111 = .ok (.rnd 1 0x0F) ∧
    decodeWord 0b1101_0001_0010_1010 = .ok (.drw 1 2 0xA) := by decide

theorem test_decode_keys :
    decodeWord 0b1110_0001_1001_1110 = .ok (.skp 1) ∧ decodeWord 0b1110_0001_1010_0001 = .ok (.sknp 1) ∧
    decodeWord 0b1111_0011_0000_1010 = .ok (.ldVxK 3) := by decide

theorem test_decode_timers :
    decodeWord 0b1111_0001_0000_0111 = .ok (.ldVxDt 1) ∧ decodeWord 0b1111_0000_0001_0101 = .ok (.ldDtVx 0) ∧
    decodeWord 0b1111_0010_0001_1000 = .ok (.ldStVx 2) := by decide

theorem test_decode_index_memory :
    decodeWord 0b1111_0001_0001_1110 = .ok (.addIVx 1) ∧ decodeWord 0b1111_0000_0010_1001 = .ok (.ldFVx 0) ∧
    decodeWord 0b1111_0000_0011_0011 = .ok (.ldBVx 0) ∧ decodeWord 0b1111_0001_0101_0101 = .ok (.ldMiVx 1) ∧
    decodeWord 0b1111_0010_0110_0101 = .ok (.ldVxMi 2) := by decide

/-- The words of 95_test_vectors.md section 2.1 that no row selects. -/
theorem test_decode_unsupported :
    [0x00E1, 0x0000, 0x0123, 0x5AB1, 0x8AB8, 0x8ABF, 0x9AB5, 0xE19F, 0xF100, 0xF166, 0xFFFF].all
      (fun w => decodeTableWord 16 w == none) = true := by decide

theorem test_decode_truncated : decode [0x60] = .error .truncated := by decide

theorem test_decode_big_endian : decode [0x60, 0x0A, 0x70] = .ok (.ldVxNn 0 0x0A, [0x70]) := by decide

theorem test_decode_table_word : decodeTableWord 16 0xD12A = some (.drw 1 2 0xA) := by decide

/-! ## Construction, fetch and the step -/

theorem test_construct_default : State.construct Config.defaultParams 0 [] 0 = .ok State.reset := by rfl

/-- Another font: glyph 0 stands, the other 75 bytes are the parameter's (R42, D16). -/
theorem test_construct_other_font :
    let s := State.fresh { Config.defaultParams with glyphs := Vector.replicate 75 0xAA } 0 0
    s.byteAt 0 = 0xF0 ∧ s.byteAt 4 = 0xF0 ∧ s.byteAt 5 = 0xAA ∧ s.byteAt 79 = 0xAA ∧ s.byteAt 80 = 0 := by
  decide

theorem test_reset_font_glyph0 :
    State.reset.byteAt 0 = 0xF0 ∧ State.reset.byteAt 1 = 0x90 ∧ State.reset.byteAt 4 = 0xF0 ∧
      State.reset.byteAt 0x50 = 0 := by decide

theorem test_reset_memory_wf : State.reset.mem.wf := by decide

/-- A write of what the unlisted address reads as removes the entry. -/
theorem test_memory_canonical :
    Memory.write (Memory.write [] 0x300 7) 0x300 0 = [] ∧ Memory.write [] 0 0xF0 = [] ∧
      Memory.write (Memory.write [] 0x301 7) 0x300 9 = [(0x300, 9), (0x301, 7)] := by decide

/-- S6 (Scenario A), the first of its two ticks, through the host's placing of a word. -/
theorem test_step_runs_placed_word :
    (stepped 0x600A State.reset).getV 0 = 0x0A ∧ (stepped 0x600A State.reset).pc = 0x202 ∧
      (stepped 0x600A State.reset).fault = none := by decide

theorem test_step_unsupported :
    (stepped 0x0000 State.reset).pc = 0x202 ∧
      (stepped 0x0000 State.reset).out = [.diagUnsupportedOpcode 0 0x200] := by decide

/-- The fetch at FFF names the address of the byte that is not there. -/
theorem test_fetch_fault :
    faultOf (nextState (instrTick (start 0xFFF 0 []))) = some (.memoryFault, some 0x1000) ∧
      faultOf (nextState (instrTick (start 0x10FE 0 []))) = some (.memoryFault, some 0x10FE) := by decide

/-! ## Vectors of sections 2.2 to 2.7 -/

theorem test_jp : (ran (.jp 0x201) (start 0x200 0 [])).pc = 0x201 := by decide

theorem test_call_pushes_next :
    (ran (.call 0xFFE) (start 0xFFE 0 [])).stack.getD 0 0 = 0x1000 ∧
      (ran (.call 0xFFE) (start 0xFFE 0 [])).sp = 1 ∧ (ran (.call 0xFFE) (start 0xFFE 0 [])).pc = 0xFFE := by
  decide

theorem test_call_overflow :
    faultOf (ran (.call 0x300) { start 0x204 0 [] with sp := 16 }) = some (.stackOverflow, none) ∧
      (ran (.call 0x300) { start 0x204 0 [] with sp := 16 }).pc = 0x204 := by decide

theorem test_ret_pops :
    let s := { start 0x20E 0 [] with sp := 1, stack := 0x206 :: List.replicate 15 0 }
    (ran .ret s).pc = 0x206 ∧ (ran .ret s).sp = 0 ∧ (ran .ret s).stack.getD 0 1 = 0 := by decide

theorem test_ret_underflow :
    faultOf (ran .ret (start 0x200 0 [])) = some (.stackUnderflow, none) := by decide

theorem test_jpV0_not_reduced : (ran (.jpV0 0xFFF) (start 0x202 0 [(0, 0xFF)])).pc = 0x10FE := by decide

theorem test_skips_on_immediate :
    (ran (.seVxNn 3 0x2A) (start 0x200 0 [(3, 0x2A)])).pc = 0x204 ∧
      (ran (.seVxNn 3 0x2A) (start 0x200 0 [(3, 0x2B)])).pc = 0x202 ∧
      (ran (.sneVxNn 3 0x2A) (start 0x200 0 [(3, 0x2A)])).pc = 0x202 ∧
      (ran (.sneVxNn 3 0x2A) (start 0x200 0 [])).pc = 0x204 := by decide

theorem test_skips_on_register :
    (ran (.seVxVy 1 2) (start 0x300 0 [(1, 7), (2, 7)])).pc = 0x304 ∧
      (ran (.seVxVy 1 2) (start 0x300 0 [(1, 7), (2, 8)])).pc = 0x302 ∧
      (ran (.sneVxVy 1 2) (start 0x300 0 [(1, 7), (2, 8)])).pc = 0x304 ∧
      (ran (.sneVxVy 3 3) (start 0x300 0 [])).pc = 0x302 := by decide

theorem test_ldVxNn : (ran (.ldVxNn 0xF 7) (start 0x200 0 [])).getV 0xF = 7 := by decide

theorem test_addVxNn_no_carry :
    (ran (.addVxNn 0 1) (start 0x200 0 [(0, 0xFF)])).getV 0 = 0 ∧
      (ran (.addVxNn 0 1) (start 0x200 0 [(0, 0xFF)])).getV 0xF = 0 := by decide

theorem test_ldVxVy : (ran (.ldVxVy 1 2) (start 0x200 0 [(2, 0x33)])).getV 1 = 0x33 := by decide

theorem test_or_leaves_vf :
    (ran (.or 1 2) (start 0x200 0 [(1, 0xF0), (2, 0x0F), (15, 1)])).getV 1 = 0xFF ∧
      (ran (.or 1 2) (start 0x200 0 [(1, 0xF0), (2, 0x0F), (15, 1)])).getV 15 = 1 := by decide

theorem test_and : (ran (.and 1 2) (start 0x200 0 [(1, 0xF0), (2, 0x3C)])).getV 1 = 0x30 := by decide

theorem test_xor : (ran (.xor 1 2) (start 0x200 0 [(1, 0xF0), (2, 0x3C)])).getV 1 = 0xCC := by decide

/-- S7 (Scenario B). -/
theorem test_addVxVy_carry :
    (ran (.addVxVy 0 1) (start 0x200 0 [(0, 0xFF), (1, 2)])).getV 0 = 1 ∧
      (ran (.addVxVy 0 1) (start 0x200 0 [(0, 0xFF), (1, 2)])).getV 15 = 1 := by decide

/-- 8F14 and 80F4: the flag is written last, and the old VF is the operand. -/
theorem test_addVxVy_vf_last :
    (ran (.addVxVy 15 1) (start 0x200 0 [(15, 1), (1, 2)])).getV 15 = 0 ∧
      (ran (.addVxVy 0 15) (start 0x200 0 [(0, 0xFF), (15, 1)])).getV 0 = 0 ∧
      (ran (.addVxVy 0 15) (start 0x200 0 [(0, 0xFF), (15, 1)])).getV 15 = 1 := by decide

theorem test_sub_borrow :
    (ran (.sub 1 2) (start 0x200 0 [(1, 5), (2, 7)])).getV 1 = 0xFE ∧
      (ran (.sub 1 2) (start 0x200 0 [(1, 5), (2, 7)])).getV 15 = 0 := by decide

theorem test_sub_equal :
    (ran (.sub 1 2) (start 0x200 0 [(1, 7), (2, 7)])).getV 1 = 0 ∧
      (ran (.sub 1 2) (start 0x200 0 [(1, 7), (2, 7)])).getV 15 = 1 := by decide

theorem test_subn_reversed :
    (ran (.subn 1 2) (start 0x200 0 [(1, 5), (2, 7)])).getV 1 = 2 ∧
      (ran (.subn 1 2) (start 0x200 0 [(1, 5), (2, 7)])).getV 15 = 1 ∧
      (ran (.subn 1 2) (start 0x200 0 [(1, 7), (2, 5)])).getV 15 = 0 := by decide

theorem test_shr_ignores_vy :
    (ran (.shr 1 2) (start 0x200 0 [(1, 5), (2, 0xFF)])).getV 1 = 2 ∧
      (ran (.shr 1 2) (start 0x200 0 [(1, 5), (2, 0xFF)])).getV 15 = 1 ∧
      (ran (.shr 1 2) (start 0x200 0 [(1, 5), (2, 0xFF)])).getV 2 = 0xFF := by decide

theorem test_shl :
    (ran (.shl 1 0) (start 0x200 0 [(1, 0x81)])).getV 1 = 2 ∧
      (ran (.shl 1 0) (start 0x200 0 [(1, 0x81)])).getV 15 = 1 ∧
      (ran (.shl 1 0) (start 0x200 0 [(1, 0x7F)])).getV 15 = 0 := by decide

theorem test_ldINnn : (ran (.ldINnn 0xFFF) (start 0x200 0 [])).i = 0x0FFF := by decide

theorem test_addIVx_past_memory : (ran (.addIVx 1) (start 0x200 0xFFF [(1, 1)])).i = 0x1000 := by decide

theorem test_addIVx_fault :
    faultOf (ran (.addIVx 1) (start 0x200 0xFFFF [(1, 1)])) = some (.memoryFault, some 0x10000) := by decide

theorem test_ldFVx_unmasked : (ran (.ldFVx 0) (start 0x200 0 [(0, 0xFF)])).i = 0x04FB := by decide

/-- S9 (Scenario D). -/
theorem test_ldBVx :
    (ran (.ldBVx 0) (start 0x200 0x300 [(0, 157)])).mem = [(0x300, 1), (0x301, 5), (0x302, 7)] := by decide

theorem test_ldBVx_fault :
    faultOf (ran (.ldBVx 0) (start 0x200 0xFFE [(0, 157)])) = some (.memoryFault, some 0x1000) ∧
      (ran (.ldBVx 0) (start 0x200 0xFFE [(0, 157)])).mem = [] := by decide

theorem test_ldMiVx :
    (ran (.ldMiVx 1) (start 0x200 0x30C [(0, 0xF5), (1, 0x0C)])).mem = [(0x30C, 0xF5), (0x30D, 0x0C)] ∧
      (ran (.ldMiVx 1) (start 0x200 0x30C [(0, 0xF5), (1, 0x0C)])).i = 0x30C := by decide

theorem test_ldVxMi_font :
    (ran (.ldVxMi 4) (start 0x200 0 [(5, 0x77)])).getV 0 = 0xF0 ∧
      (ran (.ldVxMi 4) (start 0x200 0 [(5, 0x77)])).getV 1 = 0x90 ∧
      (ran (.ldVxMi 4) (start 0x200 0 [(5, 0x77)])).getV 5 = 0x77 := by decide

theorem test_ldVxMi_fault :
    faultOf (ran (.ldVxMi 1) (start 0x200 0xFFF [])) = some (.memoryFault, some 0x1000) := by decide

theorem test_ldVxDt : (ran (.ldVxDt 1) { start 0x200 0 [] with dt := 0x3C }).getV 1 = 0x3C := by decide

theorem test_ldDtVx : (ran (.ldDtVx 0) (start 0x200 0 [(0, 3)])).dt = 3 := by decide

theorem test_ldStVx_silent :
    (ran (.ldStVx 2) (start 0x200 0 [(2, 2)])).st = 2 ∧ (ran (.ldStVx 2) (start 0x200 0 [(2, 2)])).out = [] := by
  decide

/-- Whatever byte the generator gives, C100 writes 0 and draws once. -/
theorem test_rnd_masked_to_zero :
    (ran (.rnd 1 0) (start 0x200 0 [(1, 9)])).getV 1 = 0 ∧
      (ran (.rnd 1 0) (start 0x200 0 [(1, 9)])).rng = ⟨0, 1⟩ :=
  ⟨BitVec.and_zero, rfl⟩

theorem test_timerTick :
    (timerTick { State.reset with dt := 5, st := 2 }).dt = 4 ∧
      (timerTick { State.reset with dt := 5, st := 2 }).st = 1 ∧
      (timerTick { State.reset with dt := 5, st := 2 }).out = [.signalAudio] := by decide

theorem test_timerTick_idle :
    (timerTick { State.reset with dt := 1 }).dt = 0 ∧ (timerTick { State.reset with dt := 1 }).out = [] := by
  decide

/-- S4 and 2.7: the same call twice, wrapped onto pixel (3, 4). -/
theorem test_setPixel_twice :
    (collSetPixel 67 36 true State.reset).2 = false ∧
      (collSetPixel 3 4 true (collSetPixel 67 36 true State.reset).1).2 = true := by decide

theorem test_cls :
    pixelAt (ran .cls (collSetPixel 3 4 true State.reset).1).coll.fb 4 3 = false := by decide

/-- D011 on the byte 01 (address 0x50 holds it) calls (0x46, 0x1F), which wraps to column 6. -/
theorem test_drw_wraps :
    let s := (start 0x200 0x50 [(0, 0x3F), (1, 0x1F)]).setMem [(0x50, 1)]
    (ran (.drw 0 1 1) s).out = [.setPixel 0x46 0x1F true false] ∧
      pixelAt (ran (.drw 0 1 1) s).coll.fb 0x1F 6 = true := by decide

theorem test_drw_fault_calls_nothing :
    faultOf (ran (.drw 1 2 2) (start 0x200 0xFFF [])) = some (.memoryFault, some 0x1000) ∧
      (ran (.drw 1 2 2) (start 0x200 0xFFF [])).coll = State.reset.coll := by decide

theorem test_skp_sknp :
    let s := userKey 0xA true (start 0x210 0 [(4, 0xA)])
    (ran (.skp 4) s).pc = 0x214 ∧ (ran (.sknp 4) s).pc = 0x212 ∧
      (ran (.skp 4) (start 0x210 0 [(4, 0xA)])).pc = 0x212 := by decide

theorem test_key_wait :
    let s := ran (.ldVxK 3) (start 0x220 0 [])
    s.wait = some 3 ∧ s.pc = 0x220 ∧ (keyDelivered 7 s).getV 3 = 7 ∧ (keyDelivered 7 s).pc = 0x222 ∧
      (keyDelivered 7 s).wait = none := by decide

/-- Section 2.6, the row of 16666000: the instruction first, then the timer. -/
theorem test_invoke_both_clocks :
    let s := { State.reset with dt := 9 }
    let t := nextState (invoke 16666000 s)
    t.tInstr = 16666000 ∧ t.tTimer = 16666000 ∧ t.dt = 8 ∧ t.pc = 0x202 := by decide

/-! ## Witnesses: states and operands that meet each obligation's hypotheses, at the boundaries -/

theorem witness_UnsupportedWordIsADiagnosedNoOp :
    decodeWord 0x0000 = .error (.unsupportedOpcode 0x0000) ∧
      decodeWord 0xFFFF = .error (.unsupportedOpcode 0xFFFF) := by decide

theorem witness_ConstructGivesEveryElementItsValue :
    ([] : List Byte).length ≤ 3584 ∧ (List.replicate 3584 (1 : Byte)).length ≤ 3584 := by
  rw [List.length_replicate]; decide

theorem witness_FontUnaffectedByProgramLoad :
    State.construct Config.defaultParams 0 [0x60, 0x0A] 0 =
      .ok (State.reset.setMem [(0x200, 0x60), (0x201, 0x0A)]) := by rfl

theorem witness_LoadCopiesOrFailsAbove3584Bytes :
    State.reset.mem.wf ∧ (List.replicate 3584 (1 : Byte)).length ≤ 3584 ∧
      3585 ≤ (List.replicate 3585 (1 : Byte)).length := by
  rw [List.length_replicate, List.length_replicate]; decide

/-- The three clauses meet at FFE, FFF and 1000. -/
theorem witness_FetchReadsTwoBytesHighFirst :
    (start 0xFFE 0 []).pc.toNat ≤ 0xFFE ∧ (start 0xFFF 0 []).pc.toNat = 0xFFF ∧
      0xFFF < (start 0x1000 0 []).pc.toNat := by decide

/-- P1's first word, on an invocation exactly one instruction period after reset. -/
theorem witness_StepRunsTheDecodedInstruction :
    let s := withInput (.invoke 2000000) (withWord 0x600A (start 0x200 0 []))
    s.Running ∧ s.nextInput = .invoke 2000000 ∧ s.params.pInstr ≤ s.clock + 2000000 - s.tInstr ∧
      s.fetch = .ok 0x600A ∧ decodeWord 0x600A = .ok (.ldVxNn 0 0x0A) :=
  ⟨⟨rfl, rfl⟩, rfl, by decide, by rfl, by decide⟩

/-- The unsupported word 0000 of zeroed memory, and a pc no word can be fetched from. -/
theorem witness_StepRunsTheDecodedInstruction_other :
    let s := withInput (.invoke 2000000) (start 0x200 0 [])
    let u := withInput (.invoke 2000000) (start 0xFFF 0 [])
    (s.Running ∧ s.nextInput = .invoke 2000000 ∧ s.params.pInstr ≤ s.clock + 2000000 - s.tInstr ∧
      s.fetch = .ok 0x0000 ∧ decodeWord 0x0000 = .error (.unsupportedOpcode 0x0000)) ∧
    (u.Running ∧ u.nextInput = .invoke 2000000 ∧ u.params.pInstr ≤ u.clock + 2000000 - u.tInstr ∧
      u.fetch = .error 0x1000) :=
  ⟨⟨⟨rfl, rfl⟩, rfl, by decide, by rfl, by decide⟩, ⟨⟨rfl, rfl⟩, rfl, by decide, by rfl⟩⟩

/-- One instruction for each clause, and the last pc a fetch can come from. -/
theorem witness_DefaultAdvanceByTwo :
    let s := start 0xFFE 0 []
    s.Running ∧ s.pc.toNat ≤ 0xFFE ∧
      (exec (.addVxNn 0 1) s = .next (ran (.addVxNn 0 1) s) ∧ (ran (.addVxNn 0 1) s).fault = none ∧
        isTransfer (.addVxNn 0 1) = false ∧ isSkip (.addVxNn 0 1) = false ∧ (∀ x, Instr.addVxNn 0 1 ≠ .ldVxK x)) ∧
      (exec (.seVxNn 0 0) s = .next (ran (.seVxNn 0 0) s) ∧ (ran (.seVxNn 0 0) s).fault = none ∧
        isSkip (.seVxNn 0 0) = true) ∧
      (exec (.ldVxK 0) s = .next (ran (.ldVxK 0) s) ∧ (ran (.ldVxK 0) s).fault = none) :=
  ⟨⟨rfl, rfl⟩, by decide, ⟨rfl, rfl, rfl, rfl, by simp⟩, ⟨rfl, rfl, rfl⟩, ⟨rfl, rfl⟩⟩

/-- An empty stack, and a stack one short of full. -/
theorem witness_CallPushesTheReturnAddress :
    let s := start 0x204 0 []
    let u := { start 0x204 0 [] with sp := 15 }
    (s.stack.length = s.params.stackDepth ∧ s.sp < s.params.stackDepth) ∧
      u.stack.length = u.params.stackDepth ∧ u.sp < u.params.stackDepth := by decide

theorem witness_CallOnAFullStackOverflows :
    let s := { start 0x204 0 [] with sp := 16 }
    decodeWord 0x2300 = .ok (.call 0x300) ∧ s.sp = s.params.stackDepth := by decide

/-- A full stack, and a stack of one. -/
theorem witness_ReturnPopsAndClearsTheSlot :
    let s := { start 0x20E 0 [] with sp := 16, stack := List.replicate 16 0x206 }
    let u := { start 0x20E 0 [] with sp := 1, stack := 0x206 :: List.replicate 15 0 }
    (s.stack.length = s.params.stackDepth ∧ s.sp ≤ s.params.stackDepth ∧ 0 < s.sp) ∧
      u.stack.length = u.params.stackDepth ∧ u.sp ≤ u.params.stackDepth ∧ 0 < u.sp := by decide

theorem witness_ReturnOnAnEmptyStackUnderflows :
    decodeWord 0x00EE = .ok .ret ∧ (start 0x200 0 []).sp = 0 := by decide

/-- A state in the middle of a subroutine, at the last pc a fetch can come from. -/
def inSubroutine : State :=
  { start 0xFFE 0x300 [(0, 7)] with sp := 1, stack := 0x1000 :: List.replicate 15 0, dt := 3 }

/-- The invariant has such a state. -/
theorem witness_Inv : inSubroutine.Inv where
  memWf := by decide
  stackSize := by decide
  spBound := by decide
  vacated := by
    intro k hk
    obtain ⟨j, rfl⟩ : ∃ j, k = j + 1 := ⟨k - 1, (Nat.sub_add_cancel hk).symm⟩
    show (List.replicate 15 (0 : Word)).getD j 0 = 0
    rw [List.getD_eq_getElem?_getD, List.getElem?_replicate]
    split <;> rfl
  returns := by
    intro k hk
    have h0 : k = 0 := Nat.lt_one_iff.mp hk
    subst h0
    decide
  pcBound := by decide
  waitPc := by decide
  oneStop := by decide
  instrPast := by decide
  timerPast := by decide
  fbRows := by decide
  fbCols := by decide

theorem witness_ReturnAfterCallResumesAfterTheCall :
    inSubroutine.Inv ∧ inSubroutine.sp < inSubroutine.params.stackDepth ∧
      exec (.call 0x300) inSubroutine = .next (ran (.call 0x300) inSubroutine) :=
  ⟨witness_Inv, by decide, rfl⟩

/-- The clause on `V[x]` has operands with and without a carry; VF as the destination is the other form. -/
theorem witness_AddAndSubtractSetVf :
    let s := start 0x200 0 [(0, 0xFF), (1, 1)]
    (0 : Reg) ≠ vF ∧ 255 < (s.getV 0).toNat + (s.getV 1).toNat ∧ ¬ 255 < (s.getV 1).toNat + (s.getV 1).toNat ∧
      (s.getV 1).toNat ≤ (s.getV 0).toNat ∧ ¬ (s.getV 0).toNat ≤ (s.getV 1).toNat := by decide

theorem witness_ShiftsSetVf : (0 : Reg) ≠ vF ∧ (15 : Reg) = vF := by decide

/-- An arithmetic instruction with VF as destination, and a draw. -/
theorem witness_VfIsZeroOrOneAfterFlagInstructions :
    let s := start 0x200 0 [(15, 0xFF), (1, 2)]
    s.Running ∧
      (setsFlag (.addVxVy 15 1) = true ∧ exec (.addVxVy 15 1) s = .next (ran (.addVxVy 15 1) s) ∧
        (ran (.addVxVy 15 1) s).fault = none) ∧
      (setsFlag (.drw 1 1 1) = true ∧ exec (.drw 1 1 1) s = .next (ran (.drw 1 1 1) s) ∧
        (ran (.drw 1 1 1) s).fault = none) :=
  ⟨⟨rfl, rfl⟩, ⟨rfl, rfl, rfl⟩, ⟨rfl, rfl, by decide⟩⟩

/-- A register that is no destination, and VF under an instruction without a flag. -/
theorem witness_RegistersChangeOnlyAsDestinations :
    let s := start 0x200 0 [(0, 0xFF), (1, 2)]
    (exec (.addVxVy 0 1) s = .next (ran (.addVxVy 0 1) s) ∧ isDestination 1 (.addVxVy 0 1) = false ∧
      ((1 : Reg) = vF → setsFlag (.addVxVy 0 1) = false)) ∧
      isDestination vF (.or 0 1) = false ∧ (vF = vF → setsFlag (.or 0 1) = false) :=
  ⟨⟨rfl, by decide, by decide⟩, by decide, by decide⟩

/-- The two clauses meet at FFFF and 10000. -/
theorem witness_IndexAddOrFault :
    let s := start 0x200 0xFFFE [(1, 1), (2, 2)]
    s.i.toNat + (s.getV 1).toNat ≤ 0xFFFF ∧ 0xFFFF < s.i.toNat + (s.getV 2).toNat := by decide

/-- The two clauses meet at FFD and FFE. -/
theorem witness_DecimalStore :
    let s := start 0x200 0xFFD [(0, 157)]
    let u := start 0x200 0xFFE [(0, 157)]
    s.mem.wf ∧ s.i.toNat ≤ 0xFFD ∧ u.mem.wf ∧ 0xFFD < u.i.toNat := by decide

/-- The two clauses meet where I + x is FFF and 1000; so do those of `RegisterLoad`. -/
theorem witness_RegisterStore :
    let s := start 0x200 0xFF0 []
    let u := start 0x200 0xFF1 []
    s.mem.wf ∧ s.i.toNat + (15 : Reg).val ≤ 0xFFF ∧ u.mem.wf ∧ 0xFFF < u.i.toNat + (15 : Reg).val ∧
      s.i.toNat + (0 : Reg).val ≤ 0xFFF := by decide

theorem witness_RegisterLoad :
    (start 0x200 0xFF0 []).i.toNat + (15 : Reg).val ≤ 0xFFF ∧
      0xFFF < (start 0x200 0xFF1 []).i.toNat + (15 : Reg).val := by decide

/-- P5: V0 and V1 stored over the word that is fetched next. -/
theorem witness_FetchSeesJustStoredBytes :
    let s := start 0x206 0x208 [(0, 0x12), (1, 0x08)]
    let t := ran (.ldMiVx 1) s
    s.mem.wf ∧ exec (.ldMiVx 1) s = .next t ∧ t.fault = none ∧ (1 : Reg) ≤ 1 ∧
      (1 : Reg).val = (0 : Reg).val + 1 ∧ t.pc.toNat = s.effAddr (0 : Reg).val :=
  ⟨by decide, rfl, rfl, by decide, by decide, by decide⟩

theorem witness_TimerTickDecaysBothTimers :
    ({ State.reset with st := 1 } : State).st ≠ 0 ∧ State.reset.st = 0 := by decide

/-- The default framebuffer, and a call on its last pixel whose neighbour is another pixel. -/
theorem witness_SetPixelTogglesAndReports :
    State.reset.FbShape ∧ (31, 62) ≠ (31 % State.reset.params.fbH, 63 % State.reset.params.fbW) :=
  ⟨⟨by decide, by decide, by decide⟩, by decide⟩

/-- No row with I anywhere, the last row inside memory, the first outside. -/
theorem witness_DrawCompletesOrFaults :
    ((0 : Fin 16).val = 0 ∨ (start 0x200 0xFFFF []).i.toNat + (0 : Fin 16).val ≤ 0x1000) ∧
      ((15 : Fin 16).val = 0 ∨ (start 0x200 0xFF1 []).i.toNat + (15 : Fin 16).val ≤ 0x1000) ∧
      (0 < (15 : Fin 16).val ∧ 0x1000 < (start 0x200 0xFF2 []).i.toNat + (15 : Fin 16).val) := by decide

/-- The smallest framebuffer of the statement, 8 by 15, with a sprite row whose first bit is set. -/
theorem witness_DrawTogglesCoveredPixels :
    let s := { start 0x200 0 [] with
      params := { Config.defaultParams with fbW := 8, fbH := 15 }
      coll := { State.reset.coll with fb := blankFb 8 15 } }
    s.FbShape ∧ 8 ≤ s.params.fbW ∧ 15 ≤ s.params.fbH ∧
      ((1 : Fin 16).val = 0 ∨ s.i.toNat + (1 : Fin 16).val ≤ 0x1000) ∧ s.Covers 0 0 1 0 0 ∧ ¬ s.Covers 0 0 1 1 0 := by
  refine ⟨⟨by decide, by decide, by decide⟩, by decide, by decide, by decide,
    ⟨0, 0, by decide, by decide, by decide, by decide, by decide⟩, ?_⟩
  rintro ⟨r, c, hr, -, -, hrow, -⟩
  have h0 : r = 0 := Nat.lt_one_iff.mp hr
  subst h0
  revert hrow
  decide

/-- The two clauses meet at the keys 15 and 16. -/
theorem witness_KeySkips :
    ((start 0x200 0 [(4, 15)]).getV 4).toNat = (15 : Key).val ∧ 15 < ((start 0x200 0 [(4, 16)]).getV 4).toNat := by
  decide

theorem witness_KeyDeliveredCompletesTheWait :
    let s := withInput (.keyDelivered 7) { start 0x220 0 [] with wait := some 3 }
    s.fault = none ∧ s.wait = some 3 ∧ s.nextInput = .keyDelivered 7 := ⟨rfl, rfl, rfl⟩

theorem witness_KeyInputsOutsideAWait :
    let s := withInput (.keyState 7 true) State.reset
    let u := withInput (.keyDelivered 7) State.reset
    s.fault = none ∧ s.nextInput = .keyState 7 true ∧ u.fault = none ∧ u.wait = none ∧
      u.nextInput = .keyDelivered 7 := ⟨rfl, rfl, rfl, rfl, rfl⟩

/-- A running core whose clocks are `di` and `dt` behind the time an invocation reads. -/
def ticking (di dt : Nat) (w : Word) : State :=
  withInput (.invoke 0) (withWord w
    { start 0x200 0 [] with clock := 20000000, tInstr := 20000000 - di, tTimer := 20000000 - dt })

/-- One state for each clause, at the ends of both periods. -/
theorem witness_InvocationOfARunningCore :
    let none1 := ticking 1999999 16665999 0x6001
    let timer := ticking 1999999 16666000 0x6001
    let instr := ticking 2000000 16665999 0x6001
    let both := ticking 2000000 16666000 0x6001
    let fails := ticking 2000000 16666000 0x00EE
    (none1.Running ∧ none1.nextInput = .invoke 0 ∧ 20000000 - none1.tInstr < none1.params.pInstr ∧
      20000000 - none1.tTimer < none1.params.pTimer) ∧
    (timer.Running ∧ 20000000 - timer.tInstr < timer.params.pInstr ∧
      timer.params.pTimer ≤ 20000000 - timer.tTimer) ∧
    (instr.Running ∧ instr.params.pInstr ≤ 20000000 - instr.tInstr ∧
      20000000 - instr.tTimer < instr.params.pTimer ∧
      (nextState (instrTick (instr.takeInput.setClock 20000000))).fault = none) ∧
    (both.Running ∧ both.params.pInstr ≤ 20000000 - both.tInstr ∧
      both.params.pTimer ≤ 20000000 - both.tTimer ∧
      (nextState (instrTick (both.takeInput.setClock 20000000))).fault = none) ∧
    (fails.Running ∧ fails.params.pInstr ≤ 20000000 - fails.tInstr ∧
      (nextState (instrTick (fails.takeInput.setClock 20000000))).fault ≠ none) :=
  ⟨⟨⟨rfl, rfl⟩, rfl, by decide, by decide⟩, ⟨⟨rfl, rfl⟩, by decide, by decide⟩,
    ⟨⟨rfl, rfl⟩, by decide, by decide, by decide⟩, ⟨⟨rfl, rfl⟩, by decide, by decide, by decide⟩,
    ⟨⟨rfl, rfl⟩, by decide, by decide⟩⟩

/-- The instruction tick of each of those states answers. -/
theorem witness_InvocationOfARunningCore_ticks :
    (∃ u, instrTick ((ticking 2000000 16666000 0x6001).takeInput.setClock 20000000) = .next u) ∧
      ∃ u, instrTick ((ticking 2000000 16666000 0x00EE).takeInput.setClock 20000000) = .next u :=
  ⟨⟨_, rfl⟩, ⟨_, rfl⟩⟩

/-- A waiting core under both policies, at the end of the timer period. -/
theorem witness_InvocationOfAWaitingCore :
    let frozen := { ticking 2000000 16666000 0xF30A with wait := some 3 }
    let early := { ticking 2000000 16665999 0xF30A with
      wait := some 3, params := { Config.defaultParams with keyWait := .running } }
    let late := { ticking 2000000 16666000 0xF30A with
      wait := some 3, params := { Config.defaultParams with keyWait := .running } }
    (frozen.Waiting ∧ frozen.nextInput = .invoke 0 ∧ frozen.params.keyWait = .frozen) ∧
    (early.Waiting ∧ early.nextInput = .invoke 0 ∧ early.params.keyWait = .running ∧
      20000000 - early.tTimer < early.params.pTimer) ∧
    (late.Waiting ∧ late.nextInput = .invoke 0 ∧ late.params.keyWait = .running ∧
      late.params.pTimer ≤ 20000000 - late.tTimer) :=
  ⟨⟨⟨rfl, by decide⟩, rfl, rfl⟩, ⟨⟨rfl, by decide⟩, rfl, rfl, by decide⟩,
    ⟨⟨rfl, by decide⟩, rfl, rfl, by decide⟩⟩

/-- The timer period just over, with an instruction that completes and with one that faults. -/
theorem witness_TimerTicksAreSeparatedByInstructions :
    let s := ticking 16666000 16666000 0x6001
    let u := ticking 16666000 16666000 0x00EE
    (s.Running ∧ s.nextInput = .invoke 0 ∧ s.params.pInstr ≤ s.params.pTimer ∧ s.tInstr ≤ s.tTimer ∧
      s.params.pTimer ≤ s.clock + 0 - s.tTimer ∧ (nextState (step s)).fault = none) ∧
    (u.Running ∧ u.nextInput = .invoke 0 ∧ u.tInstr ≤ u.tTimer ∧
      u.params.pTimer ≤ u.clock + 0 - u.tTimer ∧ (nextState (step u)).fault ≠ none) :=
  ⟨⟨⟨rfl, rfl⟩, rfl, by decide, by decide, by decide, by decide⟩,
    ⟨⟨rfl, rfl⟩, rfl, by decide, by decide, by decide⟩⟩

/-- Running, waiting and halted cores whose `TIME` is the integers, with periods 2 and 16, the invocation
reading the time 20. -/
def integerTimed (ti tt : Int) (w : Word) (wait : Option Reg) (keyWait : Config.KeyWaitPolicy) : State Int :=
  { State.fresh (T := Int) { pInstr := 2, pTimer := 16, keyWait := keyWait } 0 0 with
    mem := Memory.writeBytes [] 0x200 (wordBytes w)
    tInstr := ti
    tTimer := tt
    clock := 20
    wait := wait
    inputs := [.invoke 0] }

/-- Each clause has a state, at the ends of both periods. -/
theorem witness_SchedulerForAnyTime :
    let none1 := integerTimed 19 5 0x6001 none .frozen
    let timer := integerTimed 19 4 0x6001 none .frozen
    let instr := integerTimed 18 5 0x6001 none .frozen
    let both := integerTimed 18 4 0x6001 none .frozen
    let fails := integerTimed 18 4 0x00EE none .frozen
    let frozen := integerTimed 18 4 0xF30A (some 3) .frozen
    let early := integerTimed 18 5 0xF30A (some 3) .running
    let late := integerTimed 18 4 0xF30A (some 3) .running
    (none1.nextInput = .invoke 0 ∧ none1.Running ∧ ¬ (2 : Int) ≤ 20 + 0 - none1.tInstr ∧
      ¬ (16 : Int) ≤ 20 + 0 - none1.tTimer) ∧
    (timer.Running ∧ ¬ (2 : Int) ≤ 20 + 0 - timer.tInstr ∧ (16 : Int) ≤ 20 + 0 - timer.tTimer) ∧
    (instr.Running ∧ (2 : Int) ≤ 20 + 0 - instr.tInstr ∧ ¬ (16 : Int) ≤ 20 + 0 - instr.tTimer ∧
      ∃ u, instrTick (instr.takeInput.setClock 20) = .next u ∧ u.fault = none) ∧
    (both.Running ∧ (2 : Int) ≤ 20 + 0 - both.tInstr ∧ (16 : Int) ≤ 20 + 0 - both.tTimer ∧
      ∃ u, instrTick (both.takeInput.setClock 20) = .next u ∧ u.fault = none) ∧
    (fails.Running ∧ ∃ u, instrTick (fails.takeInput.setClock 20) = .next u ∧ u.fault ≠ none) ∧
    (frozen.Waiting ∧ frozen.params.keyWait = .frozen) ∧
    (early.Waiting ∧ early.params.keyWait = .running ∧ ¬ (16 : Int) ≤ 20 + 0 - early.tTimer) ∧
    (late.Waiting ∧ late.params.keyWait = .running ∧ (16 : Int) ≤ 20 + 0 - late.tTimer) ∧
    (both.setFault ⟨.stackUnderflow, 0x200, some 0x00EE, none⟩).Halted :=
  ⟨⟨rfl, ⟨rfl, rfl⟩, by decide, by decide⟩, ⟨⟨rfl, rfl⟩, by decide, by decide⟩,
    ⟨⟨rfl, rfl⟩, by decide, by decide, _, rfl, rfl⟩, ⟨⟨rfl, rfl⟩, by decide, by decide, _, rfl, rfl⟩,
    ⟨⟨rfl, rfl⟩, _, rfl, by decide⟩, ⟨⟨rfl, by decide⟩, rfl⟩, ⟨⟨rfl, by decide⟩, rfl, by decide⟩,
    ⟨⟨rfl, by decide⟩, rfl, by decide⟩, Option.some_ne_none _⟩

theorem witness_UnitOfTimeDoesNotMatter :
    0 < 3 ∧ (withInput (.invoke 2000000) State.reset).inputs ≠ [] := by decide

theorem witness_HaltedForEver :
    let r : FaultRecord := ⟨.stackUnderflow, 0x200, some 0x00EE, none⟩
    (State.reset.setFault r).fault = some r := rfl

/-- P7 (a): a return on an empty stack. -/
theorem witness_FaultsArePrecise :
    let s := ticking 2000000 0 0x00EE
    s.fault = none ∧ step s = .next (nextState (step s)) ∧ (nextState (step s)).fault ≠ none :=
  ⟨rfl, rfl, by decide⟩

/-- Both raising at a fetch, at an access, and not raising at the last address. -/
theorem witness_MemoryFaultRaisingPoints :
    let f := start 0xFFF 0 []
    let a := withWord 0xF033 (start 0x200 0xFFE [])
    let n := withWord 0xF033 (start 0x200 0xFFD [])
    (f.fault = none ∧ instrTick f = .next (nextState (instrTick f)) ∧ 0xFFE < f.pc.toNat) ∧
    (a.fault = none ∧ instrTick a = .next (nextState (instrTick a)) ∧ RaisesMemoryFault a (.ldBVx 0)) ∧
    (n.fault = none ∧ instrTick n = .next (nextState (instrTick n)) ∧ ¬ RaisesMemoryFault n (.ldBVx 0)) := by
  refine ⟨⟨rfl, rfl, by decide⟩, ⟨rfl, rfl, ?_⟩, ⟨rfl, rfl, ?_⟩⟩
  · show 0xFFF < (0xFFE#16).toNat + 2
    decide
  · show ¬ 0xFFF < (0xFFD#16).toNat + 2
    decide

/-- Instructions that each premise holds of. -/
theorem witness_OnlyTheNamedInstructionsWrite :
    let s := start 0x200 0 [(1, 2)]
    exec (.jp 0x300) s = .next (ran (.jp 0x300) s) ∧ writesI (.jp 0x300) = false ∧
      storesMemory (.jp 0x300) = false ∧ (∀ x, Instr.jp 0x300 ≠ .ldDtVx x) ∧ (∀ x, Instr.jp 0x300 ≠ .ldStVx x) ∧
      (∀ x nn, Instr.jp 0x300 ≠ .rnd x nn) ∧ Instr.jp 0x300 ≠ .ret ∧ (∀ n, Instr.jp 0x300 ≠ .call n) ∧
      (∀ x, Instr.jp 0x300 ≠ .ldVxK x) ∧ callsCollaborator (.jp 0x300) = false ∧
      (ran (.jp 0x300) s).fault = none :=
  ⟨rfl, rfl, rfl, by simp, by simp, by simp, by simp, by simp, by simp, rfl, rfl⟩

theorem witness_OnlyCallsSeeTheCollaborator : callsCollaborator (.addVxVy 0 1) = false := rfl

theorem witness_StepNeverGoesBack :
    step (ticking 2000000 0 0x6001) = .next (nextState (step (ticking 2000000 0 0x6001))) := rfl

theorem witness_ConstructionMeetsTheInvariant :
    State.construct { Config.defaultParams with stackDepth := 12 } 7 [0x12, 0x00] 5 =
      .ok ((State.fresh { Config.defaultParams with stackDepth := 12 } 7 5).setMem
        [(0x200, 0x12)]) := by rfl

theorem witness_StepKeepsTheInvariant :
    let s := withInput (.invoke 2000000) inSubroutine
    s.Inv ∧ step s = .next (nextState (step s)) := by
  refine ⟨?_, rfl⟩
  obtain ⟨h1, h2, h3, h4, h5, h6, h7, h8, h9, h10, h11, h12⟩ := witness_Inv
  exact ⟨h1, h2, h3, h4, h5, h6, h7, h8, h9, h10, h11, h12⟩

end Sys2Proof.Tests
end

