-- ==== Sys2Proof/Proofs/Memory.lean ====
section
/-! SUPPORT. Memory below the program base after construction (20_memory.md R42, R57). -/

namespace Sys2Proof.Machine

variable {T : Type}

/-- Loading a program leaves every byte below the program base (R57). -/
theorem load_byteAt_of_lt {s t : State T} (hm : s.mem.wf) {prog : List Byte} (h : s.load prog = .ok t)
    {a : Nat} (ha : a < 0x200) : t.byteAt a = s.byteAt a := by
  rw [load_byteAt hm h, if_neg (fun hin => Nat.not_le_of_lt ha hin.1)]

/-- A freshly constructed memory begins with glyph 0, whatever the other glyphs are (R42). -/
theorem fresh_byteAt_of_lt_glyph0 (p : Config.Params T) (seed : Nat) (t0 : T) {a : Nat}
    (ha : a < Config.glyph0.length) : (State.fresh p seed t0).byteAt a = Config.glyph0.getD a 0 := by
  have h80 : a < 80 := Nat.lt_trans ha (by decide)
  rw [fresh_byteAt, if_pos h80, Config.Params.fontTable, List.getD_append _ _ _ _ ha]

/-- Settles O7: the bytes a load writes start at 200, and what stands below is the fresh memory's font. -/
theorem fontUnaffectedByProgramLoad : Obligations.FontUnaffectedByProgramLoad := by
  intro p seed prog t0 s h
  have hbelow (a : Nat) (ha : a < 0x200) : s.byteAt a = (State.fresh p seed t0).byteAt a :=
    load_byteAt_of_lt (fresh_mem_wf p seed t0) h ha
  have hglyph (a : Nat) (ha : a < 5) : s.byteAt a = Config.glyph0.getD a 0 :=
    (hbelow a (by omega)).trans (fresh_byteAt_of_lt_glyph0 p seed t0 ha)
  exact ⟨hbelow, hglyph 0 (by decide), hglyph 1 (by decide), hglyph 2 (by decide), hglyph 3 (by decide),
    hglyph 4 (by decide)⟩

end Sys2Proof.Machine
end

