-- ==== Sys2Proof/Proofs/Encoding.lean ====
section
/-! SUPPORT. The fields of a word, the forms they are put together in, and the opcode map read both ways
(30_encoding.md R61, R63 to R65, R67). -/

namespace Sys2Proof

/-! ## The fields of a form (R61, R63) -/

@[simp] theorem familyOf_formNnn (f : BitVec 4) (nnn : Imm12) : familyOf (formNnn f nnn) = f := by
  apply BitVec.eq_of_toNat_eq
  rw [familyOf_toNat, formNnn_toNat]
  omega

@[simp] theorem fieldNnn_formNnn (f : BitVec 4) (nnn : Imm12) : fieldNnn (formNnn f nnn) = nnn := by
  apply BitVec.eq_of_toNat_eq
  rw [fieldNnn_toNat, formNnn_toNat]
  omega

@[simp] theorem familyOf_formXnn (f : BitVec 4) (x : Reg) (nn : Byte) : familyOf (formXnn f x nn) = f := by
  apply BitVec.eq_of_toNat_eq
  rw [familyOf_toNat, formXnn_toNat]
  omega

@[simp] theorem fieldX_formXnn (f : BitVec 4) (x : Reg) (nn : Byte) : fieldX (formXnn f x nn) = x := by
  apply Fin.ext
  rw [fieldX_val, formXnn_toNat]
  omega

@[simp] theorem fieldNn_formXnn (f : BitVec 4) (x : Reg) (nn : Byte) : fieldNn (formXnn f x nn) = nn := by
  apply BitVec.eq_of_toNat_eq
  rw [fieldNn_toNat, formXnn_toNat]
  omega

@[simp] theorem familyOf_formXyn (f : BitVec 4) (x y : Reg) (n : BitVec 4) :
    familyOf (formXyn f x y n) = f := by
  apply BitVec.eq_of_toNat_eq
  rw [familyOf_toNat, formXyn_toNat]
  omega

@[simp] theorem fieldX_formXyn (f : BitVec 4) (x y : Reg) (n : BitVec 4) :
    fieldX (formXyn f x y n) = x := by
  apply Fin.ext
  rw [fieldX_val, formXyn_toNat]
  omega

@[simp] theorem fieldY_formXyn (f : BitVec 4) (x y : Reg) (n : BitVec 4) :
    fieldY (formXyn f x y n) = y := by
  apply Fin.ext
  rw [fieldY_val, formXyn_toNat]
  omega

@[simp] theorem fieldN_formXyn (f : BitVec 4) (x y : Reg) (n : BitVec 4) :
    fieldN (formXyn f x y n) = n.toFin := by
  apply Fin.ext
  rw [fieldN_val, formXyn_toNat, BitVec.val_toFin n]
  omega

@[simp] theorem toFin_nibble (k : Fin 16) : (nibble k).toFin = k := rfl

@[simp] theorem nibble_toFin (n : BitVec 4) : nibble n.toFin = n := rfl

/-! ## A word is its fields in any form (R61, R63) -/

theorem formNnn_fields (w : Word) : formNnn (familyOf w) (fieldNnn w) = w := by
  apply BitVec.eq_of_toNat_eq
  rw [formNnn_toNat, familyOf_toNat, fieldNnn_toNat]
  omega

theorem formXnn_fields (w : Word) : formXnn (familyOf w) (fieldX w) (fieldNn w) = w := by
  apply BitVec.eq_of_toNat_eq
  rw [formXnn_toNat, familyOf_toNat, fieldX_val, fieldNn_toNat]
  omega

theorem formXyn_fields (w : Word) :
    formXyn (familyOf w) (fieldX w) (fieldY w) (nibble (fieldN w)) = w := by
  apply BitVec.eq_of_toNat_eq
  rw [formXyn_toNat, familyOf_toNat, fieldX_val, fieldY_val, nibble_toNat, fieldN_val]
  omega

/-- Settles O4: each field as a number, from which the overlaps follow. -/
theorem fieldsOfAWord : Obligations.FieldsOfAWord := by
  intro w
  rw [familyOf_toNat, fieldX_val, fieldY_val, fieldN_val, fieldNn_toNat, fieldNnn_toNat]
  omega

/-! ## A word with the fixed bits of a form is that form of its fields (R64) -/

theorem formNnn_of_mask {w : Word} {f : BitVec 4} (h : w &&& 0xF000 = formNnn f 0) :
    formNnn f (fieldNnn w) = w := by
  have hm : formNnn (familyOf w) 0 = formNnn f 0 := by
    rw [← formNnn_mask _ (fieldNnn w), formNnn_fields, h]
  have hf : familyOf w = f := by simpa using congrArg familyOf hm
  rw [← hf, formNnn_fields]

theorem formXnn_of_mask {w : Word} {f : BitVec 4} (h : w &&& 0xF000 = formXnn f 0 0) :
    formXnn f (fieldX w) (fieldNn w) = w := by
  have hm : formXnn (familyOf w) 0 0 = formXnn f 0 0 := by
    rw [← formXnn_mask _ (fieldX w) (fieldNn w), formXnn_fields, h]
  have hf : familyOf w = f := by simpa using congrArg familyOf hm
  rw [← hf, formXnn_fields]

theorem formXnn_of_maskByte {w : Word} {f : BitVec 4} {nn : Byte} (h : w &&& 0xF0FF = formXnn f 0 nn) :
    formXnn f (fieldX w) nn = w := by
  have hm : formXnn (familyOf w) 0 (fieldNn w) = formXnn f 0 nn := by
    rw [← formXnn_maskByte _ (fieldX w), formXnn_fields, h]
  have hf : familyOf w = f := by simpa using congrArg familyOf hm
  have hnn : fieldNn w = nn := by simpa using congrArg fieldNn hm
  rw [← hf, ← hnn, formXnn_fields]

theorem formXyn_of_mask {w : Word} {f : BitVec 4} (h : w &&& 0xF000 = formXyn f 0 0 0) :
    formXyn f (fieldX w) (fieldY w) (nibble (fieldN w)) = w := by
  have hm : formXyn (familyOf w) 0 0 0 = formXyn f 0 0 0 := by
    rw [← formXyn_mask _ (fieldX w) (fieldY w) (nibble (fieldN w)), formXyn_fields, h]
  have hf : familyOf w = f := by simpa using congrArg familyOf hm
  rw [← hf, formXyn_fields]

theorem formXyn_of_maskN {w : Word} {f n : BitVec 4} (h : w &&& 0xF00F = formXyn f 0 0 n) :
    formXyn f (fieldX w) (fieldY w) n = w := by
  have hm : formXyn (familyOf w) 0 0 (nibble (fieldN w)) = formXyn f 0 0 n := by
    rw [← formXyn_maskN _ (fieldX w) (fieldY w), formXyn_fields, h]
  have hf : familyOf w = f := by simpa using congrArg familyOf hm
  have hn : fieldN w = n.toFin := by simpa using congrArg fieldN hm
  rw [← hf, ← nibble_toFin n, ← hn, formXyn_fields]

/-- A row that fixes every bit is selected by its value alone. -/
theorem eq_of_maskAll {w v : Word} (h : w &&& 0xFFFF = v) : v = w := h.symm.trans BitVec.and_allOnes

/-! ## Decoding then encoding (R64, R65) -/

/-- What a row builds from a word that has its fixed bits encodes to that word. -/
def OpRow.EncodesBack (r : OpRow) : Prop := ∀ w, w &&& r.mask = r.value → encode (r.build w) = w

theorem rowsFlow_encodesBack : ∀ r ∈ rowsFlow, r.EncodesBack := by
  simp only [rowsFlow, List.forall_mem_cons]
  exact ⟨fun _ h => eq_of_maskAll h, fun _ h => eq_of_maskAll h,
    fun _ h => formNnn_of_mask h, fun _ h => formNnn_of_mask h,
    fun _ h => formXnn_of_mask h, fun _ h => formXnn_of_mask h, fun _ h => formXyn_of_maskN h,
    fun _ h => formXnn_of_mask h, fun _ h => formXnn_of_mask h, List.forall_mem_nil _⟩

theorem rowsAlu_encodesBack : ∀ r ∈ rowsAlu, r.EncodesBack := by
  simp only [rowsAlu, List.forall_mem_cons]
  refine ⟨?_, ?_, ?_, ?_, ?_, ?_, ?_, ?_, ?_, ?_, List.forall_mem_nil _⟩ <;>
    exact fun _ h => formXyn_of_maskN h

theorem rowsIndexDraw_encodesBack : ∀ r ∈ rowsIndexDraw, r.EncodesBack := by
  simp only [rowsIndexDraw, List.forall_mem_cons]
  exact ⟨fun _ h => formNnn_of_mask h, fun _ h => formNnn_of_mask h, fun _ h => formXnn_of_mask h,
    fun _ h => formXyn_of_mask h, fun _ h => formXnn_of_maskByte h, fun _ h => formXnn_of_maskByte h,
    List.forall_mem_nil _⟩

theorem rowsMisc_encodesBack : ∀ r ∈ rowsMisc, r.EncodesBack := by
  simp only [rowsMisc, List.forall_mem_cons]
  refine ⟨?_, ?_, ?_, ?_, ?_, ?_, ?_, ?_, ?_, List.forall_mem_nil _⟩ <;>
    exact fun _ h => formXnn_of_maskByte h

theorem opTable_encodesBack : ∀ r ∈ opTable, r.EncodesBack := by
  simp only [opTable, List.forall_mem_append]
  exact ⟨⟨⟨rowsFlow_encodesBack, rowsAlu_encodesBack⟩, rowsIndexDraw_encodesBack⟩, rowsMisc_encodesBack⟩

/-- A word that decodes is the encoding of its instruction. -/
theorem encode_of_decodeWord {w : Word} {i : Instr} (h : decodeWord w = .ok i) : encode i = w := by
  obtain ⟨r, hr, hsel, rfl⟩ := row_of_decodeWord h
  exact opTable_encodesBack r hr w (by simpa [OpRow.selects] using hsel)

/-! ## Encoding then decoding (R64, R65) -/

namespace Laws.EncodesInRow

theorem row_selects_encode (i : Instr) : (row i).selects (encode i) = true := by
  cases i
  exacts [cls, ret, jp _, call _, seVxNn _ _, sneVxNn _ _, seVxVy _ _, ldVxNn _ _, addVxNn _ _,
    ldVxVy _ _, or _ _, and _ _, xor _ _, addVxVy _ _, sub _ _, shr _ _, subn _ _, shl _ _, sneVxVy _ _,
    ldINnn _, jpV0 _, rnd _ _, drw _ _ _, skp _, sknp _,
    ldVxDt _, ldVxK _, ldDtVx _, ldStVx _, addIVx _, ldFVx _, ldBVx _, ldMiVx _, ldVxMi _]

/-- The row of an instruction builds it again from its word: the fields of its form are its operands. -/
theorem row_build_encode (i : Instr) : (row i).build (encode i) = i := by
  cases i <;> simp [row, rowIndex, encode, opTable, rowsFlow, rowsAlu, rowsIndexDraw, rowsMisc]

end Laws.EncodesInRow

open Laws.EncodesInRow in
/-- The word of an instruction decodes to it. -/
@[simp] theorem decodeWord_encode (i : Instr) : decodeWord (encode i) = .ok i := by
  rw [decodeWord_of_row (row_mem i) (row_selects_encode i), row_build_encode]

/-- Settles O2: `decodeWord` and `encode` are inverse to each other where a word decodes, and the word of an
instruction always decodes. -/
theorem everyWordDecodesOrIsUnsupported : Obligations.EveryWordDecodesOrIsUnsupported := by
  intro w
  cases hd : decodeWord w with
  | ok i =>
    refine .inl ⟨i, rfl, encode_of_decodeWord hd, ?_⟩
    rintro j rfl
    simpa using hd
  | error e =>
    refine .inr ⟨by rw [decodeWord_error hd], ?_⟩
    rintro j rfl
    simp at hd

end Sys2Proof

/-! ## The fetch (R60) -/

namespace Sys2Proof.Machine

/-- Settles O9: below FFF both bytes lie in memory; above, the first address outside it is the fault's. -/
theorem fetchReadsTwoBytesHighFirst : Obligations.FetchReadsTwoBytesHighFirst := by
  intro s
  have hsize : Config.memSize = 0x1000 := rfl
  rw [fetch_eq]
  refine ⟨fun h => ?_, fun h => ?_, fun h => ?_⟩
  · exact ⟨_, if_pos (by omega), composeWord_toNat _ _⟩
  · rw [if_neg (by omega), Nat.max_eq_right (by omega), hsize]
  · rw [if_neg (by omega), Nat.max_eq_left (by omega)]

end Sys2Proof.Machine
end

/-! ## Jump and the register skips write pc alone (40_flow.md R82, R83, R87 to R90) -/

namespace Sys2Proof.Machine

/-- Writing pc leaves every other element. -/
theorem setPc_sameButPc (s : State) (w : Word) : s.SameButPc (s.setPc w) := by
  have hregs : s.SameRegs (s.setPc w) := ⟨setPc_getV s w, setPc_i s w⟩
  have hmem : s.SameMemory (s.setPc w) := fun _ => rfl
  have hsystem : s.SameSystem (s.setPc w) := by
    simp [State.SameSystem, State.SameControl, State.SameEnvironment]
  exact ⟨hregs, hmem, ⟨setPc_stack s w, setPc_sp s w⟩, ⟨setPc_dt s w, setPc_st s w⟩, hsystem,
    setPc_coll s w, setPc_out s w, setPc_keyPolls s w⟩

/-- A skip, taken or not, leaves everything but pc (R82). -/
theorem skipIf_sameButPc (s : State) (c : Bool) : s.SameButPc (s.skipIf c) := by
  rw [skipIf_eq]
  exact setPc_sameButPc s _

/-- Skip on equality (R87, R89). -/
theorem skipIf_beq_pc (s : State) (a b : Byte) :
    (s.skipIf (a == b)).pc = if a = b then s.pc + 4 else s.pc + 2 := by
  rw [skipIf_eq, setPc_pc]
  simp only [beq_iff_eq]

/-- Skip on inequality (R88, R90). -/
theorem skipIf_bne_pc (s : State) (a b : Byte) :
    (s.skipIf (a != b)).pc = if a = b then s.pc + 2 else s.pc + 4 := by
  rw [skipIf_eq, setPc_pc]
  simp only [bne_iff_ne, ne_eq, ite_not]

/-- Settles O13: the jump is one write of pc, with the operand zero-extended. -/
theorem jumpSetsOnlyPc : Obligations.JumpSetsOnlyPc := fun nnn s =>
  ⟨s.setPc (zextNnn nnn), rfl, zextNnn_toNat nnn, setPc_sameButPc s _⟩

/-- Settles O20: each of the four is `skipIf` on one comparison of two bytes. -/
theorem registerSkips : Obligations.RegisterSkips := fun x y nn s =>
  ⟨⟨s.skipIf (s.getV x == nn), rfl, skipIf_sameButPc s _, skipIf_beq_pc s _ _⟩,
    ⟨s.skipIf (s.getV x != nn), rfl, skipIf_sameButPc s _, skipIf_bne_pc s _ _⟩,
    ⟨s.skipIf (s.getV x == s.getV y), rfl, skipIf_sameButPc s _, skipIf_beq_pc s _ _⟩,
    ⟨s.skipIf (s.getV x != s.getV y), rfl, skipIf_sameButPc s _, skipIf_bne_pc s _ _⟩⟩

end Sys2Proof.Machine

/-! ## Adding and subtracting write `V[x]`, VF and pc alone (41_alu.md R100 to R102, R104, R109, R110, R112) -/

namespace Sys2Proof.Machine

theorem State.SameButRegs.refl (s : State) : s.SameButRegs s := (setPc_sameButPc s s.pc).2

/-- A register is outside what `SameButRegs` compares. -/
theorem State.SameButRegs.setV {s u : State} (h : s.SameButRegs u) (x : Reg) (b : Byte) :
    s.SameButRegs (u.setV x b) := h

/-- pc is outside what `SameButRegs` compares. -/
theorem State.SameButRegs.advance {s u : State} (h : s.SameButRegs u) : s.SameButRegs u.advance := h

/-- One register write and the advance change nothing else. -/
theorem setV_advance_sameButReg (s : State) (x : Reg) (b : Byte) :
    s.SameButReg x (s.setV x b).advance :=
  ⟨fun _ hr => setV_getV_ne hr, rfl, ((State.SameButRegs.refl s).setV x b).advance⟩

/-- The two writes of a flag-setting instruction and the advance change nothing else (R102). -/
theorem setResultAndFlag_advance_sameButRegAndFlag (s : State) (x : Reg) (p : Byte × Bool) :
    s.SameButRegAndFlag x (s.setResultAndFlag x p).advance := by
  refine ⟨fun r hx hf => ?_, rfl, (((State.SameButRegs.refl s).setV x p.1).setV vF (flagByte p.2)).advance⟩
  rw [advance_getV, setResultAndFlag_getV, if_neg hf, if_neg hx]

/-- The flag is written last, so VF reads it whatever x is (R102). -/
theorem setResultAndFlag_getV_vF (s : State) (x : Reg) (p : Byte × Bool) :
    (s.setResultAndFlag x p).getV vF = flagByte p.2 := by
  rw [setResultAndFlag_getV, if_pos rfl]

/-- The result stays in `V[x]` when the flag does not overwrite it (R102). -/
theorem setResultAndFlag_getV_of_ne (s : State) {x : Reg} (hx : x ≠ vF) (p : Byte × Bool) :
    (s.setResultAndFlag x p).getV x = p.1 := by
  rw [setResultAndFlag_getV, if_neg hx, if_pos rfl]

theorem flagByte_decide (p : Prop) [Decidable p] : flagByte (decide p) = if p then 1 else 0 := by
  simp only [flagByte, decide_eq_true_eq]

theorem flagByte_wrappingAdd (a b : Byte) :
    flagByte (wrappingAdd a b).2 = if 255 < a.toNat + b.toNat then 1 else 0 :=
  flagByte_decide (255 < a.toNat + b.toNat)

theorem flagByte_wrappingSub (a b : Byte) :
    flagByte (wrappingSub a b).2 = if b.toNat ≤ a.toNat then 1 else 0 :=
  flagByte_decide (b.toNat ≤ a.toNat)

/-- `wrapping_sub` is the difference of the integers modulo 256 (R101). -/
theorem wrappingSub_toNat_eq_emod (a b : Byte) :
    ((wrappingSub a b).1.toNat : Int) = (a.toNat - b.toNat : Int) % 256 := by
  have ha := a.isLt
  have hb := b.isLt
  rw [wrappingSub_toNat]
  split <;> omega

/-- What a subtraction leaves behind, in either order of its operands (R110, R112). -/
theorem setResultAndFlag_wrappingSub_advance (s : State) (x : Reg) (a b : Byte) :
    let t := (s.setResultAndFlag x (wrappingSub a b)).advance
    (x ≠ vF → ((t.getV x).toNat : Int) = (a.toNat - b.toNat : Int) % 256) ∧
      t.getV vF = (if b.toNat ≤ a.toNat then 1 else 0) ∧ t.pc = s.pc + 2 ∧ s.SameButRegAndFlag x t := by
  refine ⟨fun hx => ?_, ?_, rfl, setResultAndFlag_advance_sameButRegAndFlag s x _⟩
  · rw [advance_getV, setResultAndFlag_getV_of_ne s hx, wrappingSub_toNat_eq_emod]
  · rw [advance_getV, setResultAndFlag_getV_vF, flagByte_wrappingSub]

/-- Settles O23: each of the three is `setResultAndFlag` on a sum or a difference, and the two subtractions
are one with the operands in either order. -/
theorem addAndSubtractSetVf : Obligations.AddAndSubtractSetVf := by
  intro x y s
  refine ⟨⟨_, rfl, fun hx => ?_, ?_, rfl, setResultAndFlag_advance_sameButRegAndFlag s x _⟩,
    ⟨_, rfl, setResultAndFlag_wrappingSub_advance s x (s.getV x) (s.getV y)⟩,
    ⟨_, rfl, setResultAndFlag_wrappingSub_advance s x (s.getV y) (s.getV x)⟩⟩
  · rw [advance_getV, setResultAndFlag_getV_of_ne s hx, wrappingAdd_toNat]
  · rw [advance_getV, setResultAndFlag_getV_vF, flagByte_wrappingAdd]

/-- Settles O22: one register write of the sum; the carry goes nowhere. -/
theorem addImmediateDiscardsTheCarry : Obligations.AddImmediateDiscardsTheCarry := by
  intro x nn s
  refine ⟨(s.setV x (wrappingAdd (s.getV x) nn).1).advance, rfl, ?_, rfl, setV_advance_sameButReg s x _⟩
  rw [advance_getV, setV_getV_self, wrappingAdd_toNat]

end Sys2Proof.Machine

/-! ## Calls to the collaborator leave the core (44_display_keypad.md R150, R151, R157) -/

namespace Sys2Proof.Machine

theorem State.SameButOutside.refl (s : State) : s.SameButOutside s :=
  have ⟨hregs, hmem, hstack, htimers, hsystem, _⟩ := setPc_sameButPc s s.pc
  ⟨hregs, hmem, hstack, htimers, hsystem⟩

/-- The collaborator is outside what `SameButOutside` compares. -/
theorem State.SameButOutside.setColl {s u : State} (h : s.SameButOutside u) (c : Collab) :
    s.SameButOutside (u.setColl c) := h

/-- The outputs are outside what `SameButOutside` compares. -/
theorem State.SameButOutside.emit {s u : State} (h : s.SameButOutside u) (e : Event) :
    s.SameButOutside (u.emit e) := h

/-- pc is outside what `SameButOutside` compares. -/
theorem State.SameButOutside.advance {s u : State} (h : s.SameButOutside u) :
    s.SameButOutside u.advance := h

/-- `clear()` leaves the core as it was (R150, R151). -/
theorem collClear_sameButOutside (s : State) : s.SameButOutside (collClear s) :=
  ((State.SameButOutside.refl s).setColl _).emit _

/-- `clear()` unsets every pixel (R151). -/
theorem collClear_pixelAt (s : State) (row col : Nat) :
    pixelAt (collClear s).coll.fb row col = false :=
  pixelAt_blankFb s.params.fbW s.params.fbH row col

/-- Settles O37: `00E0` is one `clear()`, which puts a blank framebuffer in place, and the advance. -/
theorem clearScreen : Obligations.ClearScreen := fun s =>
  ⟨(collClear s).advance, rfl, collClear_pixelAt s, rfl, rfl, rfl, rfl, rfl,
    (collClear_sameButOutside s).advance⟩

end Sys2Proof.Machine

/-! ## The timer tick (60_exceptions.md R183) -/

namespace Sys2Proof.Machine

/-- DT, ST, the audio count and the outputs, which a timer tick writes, are outside this frame. -/
theorem timerTick_frame (s : State) :
    s.SameRegs (timerTick s) ∧ s.SameMemory (timerTick s) ∧ s.SameStack (timerTick s) ∧
      s.SameSystem (timerTick s) := by
  obtain ⟨hregs, hmem, hstack, -, hsystem⟩ := State.SameButOutside.refl s
  rw [timerTick_eq]
  exact ⟨hregs, hmem, hstack, hsystem⟩

/-- Settles O36: both timers are `decayed`, and one test of the old ST decides the signal and its count. -/
theorem timerTickDecaysBothTimers : Obligations.TimerTickDecaysBothTimers := by
  intro s
  obtain ⟨hregs, hmem, hstack, hsystem⟩ := timerTick_frame s
  rw [timerTick_eq] at hregs hmem hstack hsystem ⊢
  exact ⟨decayed_toNat s.dt, decayed_toNat s.st, fun h => ⟨if_neg h, if_neg h⟩,
    fun h => ⟨if_pos h, if_pos h⟩, rfl, hregs, hmem, hstack, hsystem, rfl, rfl⟩

end Sys2Proof.Machine

/-! ## Program load writes the bytes of the image alone (70_reset_and_hazards.md R202) -/

namespace Sys2Proof.Machine

theorem State.SameButMemory.refl (s : State) : s.SameButMemory s :=
  have ⟨hregs, _, hrest⟩ := setPc_sameButPc s s.pc
  ⟨hregs, hrest⟩

/-- Memory is outside what `SameButMemory` compares. -/
theorem State.SameButMemory.setMem {s u : State} (h : s.SameButMemory u) (m : Memory) :
    s.SameButMemory (u.setMem m) := h

section
variable {T : Type}

/-- A load that succeeds is one write of memory (R202). -/
theorem load_of_length_le (s : State T) {prog : List Byte} (h : prog.length ≤ Config.progMax) :
    s.load prog = .ok (s.setMem (s.mem.writeBytes Config.progBase prog)) := by
  rw [load_eq, if_pos h]

/-- An image longer than the room from the program base up is refused (R171, R202). -/
theorem load_of_lt_length (s : State T) {prog : List Byte} (h : Config.progMax < prog.length) :
    s.load prog = .error .imageTooLong := by
  rw [load_eq, if_neg (Nat.not_le_of_lt h)]

/-- Byte `k` of the image stands at 200 + k after a load (R202). -/
theorem load_byteAt_image {s t : State T} (hm : s.mem.wf) {prog : List Byte} (h : s.load prog = .ok t)
    {k : Nat} (hk : k < prog.length) : t.byteAt (0x200 + k) = prog.getD k 0 := by
  rw [load_byteAt hm h, if_pos ⟨Nat.le_add_right _ _, Nat.add_lt_add_left hk _⟩, Nat.add_sub_cancel_left]

/-- A byte outside the image is as before the load (R202). -/
theorem load_byteAt_outside {s t : State T} (hm : s.mem.wf) {prog : List Byte} (h : s.load prog = .ok t)
    {a : Nat} (ha : a < 0x200 ∨ 0x200 + prog.length ≤ a) : t.byteAt a = s.byteAt a := by
  rw [load_byteAt hm h, if_neg (by omega)]

end

/-- Settles O8: 3584 is the room from the program base up, and a load that fits is one write of memory. -/
theorem loadCopiesOrFailsAbove3584Bytes : Obligations.LoadCopiesOrFailsAbove3584Bytes := by
  intro prog s hm
  refine ⟨fun hfits => ?_, load_of_lt_length s⟩
  have hload := load_of_length_le s hfits
  exact ⟨_, hload, fun _ => load_byteAt_image hm hload, fun _ => load_byteAt_outside hm hload,
    (State.SameButMemory.refl s).setMem _, setMem_pc s _⟩

end Sys2Proof.Machine

/-! ## Every instruction is a choice between a fault and an effect (60_exceptions.md R170, R176, R177) -/

namespace Sys2Proof.Machine

section
variable {T : Type}

/-- The fault of an access to `len` bytes from I up, if one lies above FFF (R126, R175). -/
def State.accessRaises (s : State T) (len : Nat) : Option (Fault × Option Nat) :=
  (s.accessFault len).map fun a => (.memoryFault, some a)

/-- The fault an instruction raises in a state, by its cause and the address its record names (R173 to R175). -/
def State.raises (s : State T) : Instr → Option (Fault × Option Nat)
  | .call _ => if s.sp = s.params.stackDepth then some (.stackOverflow, none) else none
  | .ret => if s.sp = 0 then some (.stackUnderflow, none) else none
  | .drw _ _ n => s.accessRaises n.val
  | .addIVx x =>
    if 0xFFFF < s.i.toNat + (s.getV x).toNat then
      some (.memoryFault, some (s.i.toNat + (s.getV x).toNat))
    else none
  | .ldBVx _ => s.accessRaises 3
  | .ldMiVx x => s.accessRaises (x.val + 1)
  | .ldVxMi x => s.accessRaises (x.val + 1)
  | _ => none

/-- What a poll of key `key` leaves of the state: the count of free answers and the output (R153). -/
def State.polled (s : State T) (key : Byte) : State T :=
  (s.setKeyPolls (collIsKeyPressed key s).1.keyPolls).emit (.isKeyPressed key (collIsKeyPressed key s).2)

/-- What an instruction does to a state in which it raises no fault, each field written once, so that every
other field is the state's own by definition. -/
def State.effect (s : State T) : Instr → State T
  | .cls => (collClear s).advance
  | .ret => (s.setSlot (s.sp - 1) 0 (s.sp - 1)).setPc (s.stack.getD (s.sp - 1) 0)
  | .jp nnn => s.setPc (zextNnn nnn)
  | .call nnn => (s.setSlot s.sp (s.pc + 2) (s.sp + 1)).setPc (zextNnn nnn)
  | .seVxNn x nn => s.setPc (if s.getV x == nn then s.pc + 4 else s.pc + 2)
  | .sneVxNn x nn => s.setPc (if s.getV x != nn then s.pc + 4 else s.pc + 2)
  | .seVxVy x y => s.setPc (if s.getV x == s.getV y then s.pc + 4 else s.pc + 2)
  | .ldVxNn x nn => (s.setV x nn).advance
  | .addVxNn x nn => (s.setV x (wrappingAdd (s.getV x) nn).1).advance
  | .ldVxVy x y => (s.setV x (s.getV y)).advance
  | .or x y => (s.setV x (s.getV x ||| s.getV y)).advance
  | .and x y => (s.setV x (s.getV x &&& s.getV y)).advance
  | .xor x y => (s.setV x (s.getV x ^^^ s.getV y)).advance
  | .addVxVy x y => (s.setResultAndFlag x (wrappingAdd (s.getV x) (s.getV y))).advance
  | .sub x y => (s.setResultAndFlag x (wrappingSub (s.getV x) (s.getV y))).advance
  | .shr x _ => (s.setResultAndFlag x (shiftRight (s.getV x))).advance
  | .subn x y => (s.setResultAndFlag x (wrappingSub (s.getV y) (s.getV x))).advance
  | .shl x _ => (s.setResultAndFlag x (shiftLeft (s.getV x))).advance
  | .sneVxVy x y => s.setPc (if s.getV x != s.getV y then s.pc + 4 else s.pc + 2)
  | .ldINnn nnn => (s.setI (zextNnn nnn)).advance
  | .jpV0 nnn => s.setPc (zextByte (s.getV 0) + zextNnn nnn)
  | .rnd x nn => ((s.setRng (rngStep s.rng).2).setV x ((rngStep s.rng).1 &&& nn)).advance
  | .drw x y n =>
    let drawn := drawCells (spriteCells (s.getV x).toNat (s.getV y).toNat (s.bytesAtI n.val)) s
    { (s.setV vF (flagByte drawn.2)).advance with
      coll := { s.coll with fb := drawn.1.coll.fb }
      out := drawn.1.out }
  | .skp x =>
    (s.polled (s.getV x)).setPc (if (collIsKeyPressed (s.getV x) s).2 then s.pc + 4 else s.pc + 2)
  | .sknp x =>
    (s.polled (s.getV x)).setPc (if !(collIsKeyPressed (s.getV x) s).2 then s.pc + 4 else s.pc + 2)
  | .ldVxDt x => (s.setV x s.dt).advance
  | .ldVxK x => (collNextKey s).setWait (some x)
  | .ldDtVx x => (s.setDt (s.getV x)).advance
  | .ldStVx x => (s.setSt (s.getV x)).advance
  | .addIVx x => (s.setI (BitVec.ofNat 16 (s.i.toNat + (s.getV x).toNat))).advance
  | .ldFVx x => (s.setI (zextByte (s.getV x) * 5)).advance
  | .ldBVx x => (s.storeAtI (decimalDigits (s.getV x))).advance
  | .ldMiVx x => (s.storeAtI (s.valuesUpTo x)).advance
  | .ldVxMi x => { s.advance with v := (s.loadRegs ((regsUpTo x).zip (s.bytesAtI (x.val + 1)))).v }

/-- The state with the record of an instruction's fault (R176). -/
def State.faulted (s : State T) (i : Instr) (c : Fault) (a : Option Nat) : State T :=
  s.setFault ⟨c, s.pc, some (encode i), a⟩

/-- The state after an instruction: its fault if it raises one, else its effect. -/
def State.after (s : State T) (i : Instr) : State T :=
  match s.raises i with
  | some (c, a) => s.faulted i c a
  | none => s.effect i

theorem after_of_raises {s : State T} {i : Instr} {c : Fault} {a : Option Nat} (h : s.raises i = some (c, a)) :
    s.after i = s.faulted i c a := by
  simp only [State.after, h]

theorem after_of_not_raises {s : State T} {i : Instr} (h : s.raises i = none) : s.after i = s.effect i := by
  simp only [State.after, h]

theorem after_cases (s : State T) (i : Instr) :
    (∃ c a, s.raises i = some (c, a) ∧ s.after i = s.faulted i c a) ∨
      (s.raises i = none ∧ s.after i = s.effect i) := by
  rcases h : s.raises i with _ | ⟨c, a⟩
  · exact .inr ⟨rfl, after_of_not_raises h⟩
  · exact .inl ⟨c, a, rfl, after_of_raises h⟩

/-! ### The shared operations in the form `effect` has them -/

/-- A poll changes the count of free answers and the outputs alone (R153). -/
theorem collIsKeyPressed_fst (key : Byte) (s : State T) : (collIsKeyPressed key s).1 = s.polled key := by
  unfold State.polled collIsKeyPressed
  split <;> rfl

/-- A poll's skip keeps what the poll left (R159, R160). -/
theorem collIsKeyPressed_skipIf (key : Byte) (s : State T) (c : Bool) :
    (collIsKeyPressed key s).1.skipIf c = (s.polled key).setPc (if c then s.pc + 4 else s.pc + 2) := by
  rw [collIsKeyPressed_fst, skipIf_eq]
  rfl

/-- A run of calls changes the framebuffer and the outputs alone (R163). -/
theorem drawCells_fst (cells : List (Nat × Nat)) (s : State T) :
    (drawCells cells s).1 =
      { s with
        coll := { s.coll with fb := (drawCells cells s).1.coll.fb }
        out := (drawCells cells s).1.out } := by
  induction cells generalizing s with
  | nil => rfl
  | cons p cells ih => exact ih (collSetPixel p.1 p.2 true s).1

/-- An access of at least one byte past FFF raises, with the lowest address outside memory (R126). -/
theorem accessRaises_of_lt {s : State T} {len : Nat} (h0 : 0 < len) (h : 0x1000 < s.i.toNat + len) :
    s.accessRaises len = some (.memoryFault, some (max s.i.toNat 0x1000)) := by
  rw [State.accessRaises, accessFault_some.mpr ⟨h0, h, rfl⟩]
  rfl

/-- An access raises nothing exactly when it is of no byte or its bytes lie in memory (R126). -/
theorem accessRaises_eq_none {s : State T} {len : Nat} :
    s.accessRaises len = none ↔ len = 0 ∨ s.i.toNat + len ≤ 0x1000 := by
  rw [State.accessRaises, Option.map_eq_none_iff]
  exact accessFault_none

/-- Every instruction answers the state after it (log 11). -/
theorem execute_next (i : Instr) (s : State T) : execute i s = .next (s.after i) := by
  cases i
  case call nnn =>
    by_cases h : s.sp = s.params.stackDepth
    · simp only [execute, execCall, push_of_eq h, State.after, State.raises, if_pos h]
      rfl
    · simp only [execute, execCall, push_of_ne h, State.after, State.raises, if_neg h]
      rfl
  case ret =>
    by_cases h : s.sp = 0
    · simp only [execute, execRet, pop_of_zero h, State.after, State.raises, if_pos h]
      rfl
    · simp only [execute, execRet, pop_of_pos (Nat.pos_of_ne_zero h), State.after, State.raises, if_neg h]
      rfl
  case addIVx x =>
    simp only [execute, execAddIVx, raiseIn_eq, State.after, State.raises]
    split <;> rfl
  case ldBVx x =>
    simp only [execute, execLdBVx, State.after, State.raises, State.accessRaises]
    cases s.accessFault 3 <;> rfl
  case ldMiVx x =>
    simp only [execute, execLdMiVx, State.after, State.raises, State.accessRaises]
    cases s.accessFault (x.val + 1) <;> rfl
  case ldVxMi x =>
    simp only [execute, execLdVxMi, State.after, State.raises, State.accessRaises]
    rw [loadRegs_eq]
    cases s.accessFault (x.val + 1) <;> rfl
  case drw x y n =>
    simp only [execute, execDrw, State.after, State.raises, State.accessRaises]
    rw [drawCells_fst]
    cases s.accessFault n.val <;> rfl
  case skp | sknp => exact congrArg Host.Outcome.next (collIsKeyPressed_skipIf _ s _)
  case seVxNn | sneVxNn | seVxVy | sneVxVy => exact congrArg Host.Outcome.next (skipIf_eq s _)
  all_goals rfl

/-! ### What no effect writes -/

@[simp] theorem effect_fault (s : State T) (i : Instr) : (s.effect i).fault = s.fault := by cases i <;> rfl
@[simp] theorem effect_tInstr (s : State T) (i : Instr) : (s.effect i).tInstr = s.tInstr := by cases i <;> rfl
@[simp] theorem effect_tTimer (s : State T) (i : Instr) : (s.effect i).tTimer = s.tTimer := by cases i <;> rfl
@[simp] theorem effect_params (s : State T) (i : Instr) : (s.effect i).params = s.params := by cases i <;> rfl
@[simp] theorem effect_clock (s : State T) (i : Instr) : (s.effect i).clock = s.clock := by cases i <;> rfl
@[simp] theorem effect_inputs (s : State T) (i : Instr) : (s.effect i).inputs = s.inputs := by cases i <;> rfl
@[simp] theorem effect_envCount (s : State T) (i : Instr) : (s.effect i).envCount = s.envCount := by
  cases i <;> rfl

end

/-! ### `exec`, with the default `TIME` -/

theorem exec_eq (i : Instr) (s : State) : exec i s = .next (s.after i) := execute_next i s

theorem exec_of_raises {i : Instr} {s : State} {c : Fault} {a : Option Nat} (h : s.raises i = some (c, a)) :
    exec i s = .next (s.faulted i c a) := by
  rw [exec_eq, after_of_raises h]

theorem exec_of_not_raises {i : Instr} {s : State} (h : s.raises i = none) :
    exec i s = .next (s.effect i) := by
  rw [exec_eq, after_of_not_raises h]

/-- What an instruction answers is its fault or its effect. -/
theorem exec_cases {i : Instr} {s t : State} (h : exec i s = .next t) :
    (∃ c a, s.raises i = some (c, a) ∧ t = s.faulted i c a) ∨ (s.raises i = none ∧ t = s.effect i) := by
  rw [exec_eq, Host.Outcome.next.injEq] at h
  exact h ▸ after_cases s i

/-- What an instruction answers without a fault is its effect. -/
theorem eq_effect_of_exec {i : Instr} {s t : State} (h : exec i s = .next t) (hf : t.fault = none) :
    t = s.effect i := by
  rcases exec_cases h with ⟨c, a, -, rfl⟩ | ⟨-, ht⟩
  · exact absurd hf (Option.some_ne_none _)
  · exact ht

/-! ### What only the named instructions write (10_state.md sections 2 to 8) -/

theorem effect_i {i : Instr} (h : writesI i = false) (s : State) : (s.effect i).i = s.i := by
  cases i <;> cases h <;> rfl

theorem effect_mem {i : Instr} (h : storesMemory i = false) (s : State) : (s.effect i).mem = s.mem := by
  cases i <;> cases h <;> rfl

theorem effect_coll {i : Instr} (h : callsCollaborator i = false) (s : State) : (s.effect i).coll = s.coll := by
  cases i <;> cases h <;> rfl

theorem effect_keyPolls {i : Instr} (h : callsCollaborator i = false) (s : State) :
    (s.effect i).keyPolls = s.keyPolls := by
  cases i <;> cases h <;> rfl

theorem effect_out {i : Instr} (h : callsCollaborator i = false) (s : State) : (s.effect i).out = s.out := by
  cases i <;> cases h <;> rfl

theorem effect_dt {i : Instr} (h : ∀ x, i ≠ .ldDtVx x) (s : State) : (s.effect i).dt = s.dt := by
  cases i
  case ldDtVx x => exact absurd rfl (h x)
  all_goals rfl

theorem effect_st {i : Instr} (h : ∀ x, i ≠ .ldStVx x) (s : State) : (s.effect i).st = s.st := by
  cases i
  case ldStVx x => exact absurd rfl (h x)
  all_goals rfl

theorem effect_rng {i : Instr} (h : ∀ x nn, i ≠ .rnd x nn) (s : State) : (s.effect i).rng = s.rng := by
  cases i
  case rnd x nn => exact absurd rfl (h x nn)
  all_goals rfl

theorem effect_sameStack {i : Instr} (hr : i ≠ .ret) (hc : ∀ nnn, i ≠ .call nnn) (s : State) :
    s.SameStack (s.effect i) := by
  cases i
  case ret => exact absurd rfl hr
  case call nnn => exact absurd rfl (hc nnn)
  all_goals exact ⟨rfl, rfl⟩

theorem effect_wait {i : Instr} (h : ∀ x, i ≠ .ldVxK x) (s : State) : (s.effect i).wait = s.wait := by
  cases i
  case ldVxK x => exact absurd rfl (h x)
  all_goals rfl

theorem effect_sameEnvironment (i : Instr) (s : State) : s.SameEnvironment (s.effect i) :=
  ⟨effect_tInstr s i, effect_tTimer s i, effect_params s i, effect_clock s i, effect_inputs s i,
    effect_envCount s i⟩

end Sys2Proof.Machine

/-! ## Statements over all instructions, read off `effect` -/

namespace Sys2Proof.Machine

/-- Settles O51: a fault writes FAULT and the report alone, an effect only what its instruction is named for. -/
theorem onlyTheNamedInstructionsWrite : Obligations.OnlyTheNamedInstructionsWrite := by
  intro i s t h
  rcases exec_cases h with ⟨c, a, -, rfl⟩ | ⟨-, rfl⟩
  · exact ⟨fun _ => rfl, fun _ _ => rfl, fun _ => rfl, fun _ => rfl, fun _ => rfl, fun _ _ => ⟨rfl, rfl⟩,
      fun _ => rfl, fun _ => ⟨rfl, rfl⟩, fun _ hf => absurd hf (Option.some_ne_none _),
      ⟨rfl, rfl, rfl, rfl, rfl, rfl⟩⟩
  · exact ⟨fun hi => effect_i hi s, fun hm a => congrArg (Memory.byteAt · a) (effect_mem hm s),
      fun hd => effect_dt hd s, fun hs => effect_st hs s, fun hg => effect_rng hg s,
      fun hr hc => effect_sameStack hr hc s, fun hw => effect_wait hw s,
      fun hc => ⟨effect_coll hc s, effect_keyPolls hc s⟩, fun hc _ => effect_out hc s,
      effect_sameEnvironment i s⟩

/-! ### pc (40_flow.md R81, R82) -/

theorem effect_pc_of_advance {i : Instr} (ht : isTransfer i = false) (hs : isSkip i = false)
    (hk : ∀ x, i ≠ .ldVxK x) (s : State) : (s.effect i).pc = s.pc + 2 := by
  cases i
  case ldVxK x => exact absurd rfl (hk x)
  all_goals cases ht <;> cases hs <;> rfl

theorem effect_pc_of_skip {i : Instr} (h : isSkip i = true) (s : State) :
    (s.effect i).pc = s.pc + 2 ∨ (s.effect i).pc = s.pc + 4 := by
  have hskip (c : Bool) : (if c then s.pc + 4 else s.pc + 2) = s.pc + 2 ∨
      (if c then s.pc + 4 else s.pc + 2) = s.pc + 4 := by
    cases c
    · exact .inl rfl
    · exact .inr rfl
  cases i <;> cases h <;> exact hskip _

/-- From a pc that a fetch can come from, an advance of 2 or 4 does not wrap. -/
theorem pc_add_toNat {pc : Word} (h : pc.toNat ≤ 0xFFE) :
    (pc + 2).toNat = pc.toNat + 2 ∧ (pc + 4).toNat = pc.toNat + 4 := by
  constructor <;> bv_omega

/-- Settles O12: without a fault an instruction leaves its effect, whose pc is read off case by case. -/
theorem defaultAdvanceByTwo : Obligations.DefaultAdvanceByTwo := by
  intro i s t _ h hf
  obtain rfl := eq_effect_of_exec h hf
  exact ⟨fun ht hs hk => effect_pc_of_advance ht hs hk s, fun hs => effect_pc_of_skip hs s,
    fun x hx => by rw [hx]; rfl, pc_add_toNat⟩

/-! ### Registers (10_state.md R10, R11) -/

/-- A register that is neither written by an effect nor its flag reads as before. -/
theorem effect_getV {i : Instr} {r : Reg} (hd : isDestination r i = false) (hf : r = vF → setsFlag i = false)
    (s : State) : (s.effect i).getV r = s.getV r := by
  have hset (x : Reg) (b : Byte) (h : decide (r = x) = false) : (s.setV x b).getV r = s.getV r :=
    setV_getV_ne (of_decide_eq_false h)
  have hflag (x : Reg) (p : Byte × Bool) (h : decide (r = x) = false) (hr : r = vF → true = false) :
      (s.setResultAndFlag x p).getV r = s.getV r := by
    rw [setResultAndFlag_getV, if_neg (fun e => Bool.noConfusion (hr e)), if_neg (of_decide_eq_false h)]
  cases i
  case ldVxNn | addVxNn | ldVxVy | or | and | xor | rnd | ldVxDt => exact hset _ _ hd
  case addVxVy | sub | shr | subn | shl => exact hflag _ _ hd hf
  case drw => exact setV_getV_ne (fun e => Bool.noConfusion (hf e))
  case ldVxMi x =>
    refine (loadRegs_upTo_getV s (bytesAtI_length s (x.val + 1)) r).trans ?_
    rw [if_neg (of_decide_eq_false hd)]
  all_goals rfl

/-- Settles O27: a fault writes no register, and an effect only its destinations and its flag. -/
theorem registersChangeOnlyAsDestinations : Obligations.RegistersChangeOnlyAsDestinations := by
  intro i s t r h hd hf
  rcases exec_cases h with ⟨c, a, -, rfl⟩ | ⟨-, rfl⟩
  · rfl
  · exact effect_getV hd hf s

/-- A flag instruction writes VF last, as a flag (R11, R102). -/
theorem effect_vF_of_setsFlag {i : Instr} (h : setsFlag i = true) (s : State) :
    ∃ c, (s.effect i).getV vF = flagByte c := by
  cases i <;> cases h
  case drw => exact ⟨_, setV_getV_self s vF _⟩
  all_goals exact ⟨_, setResultAndFlag_getV_vF s _ _⟩

/-- Settles O26: the flag written last is 0 or 1. -/
theorem vfIsZeroOrOneAfterFlagInstructions : Obligations.VfIsZeroOrOneAfterFlagInstructions := by
  intro i s t hflag _ h hf
  obtain rfl := eq_effect_of_exec h hf
  obtain ⟨c, hc⟩ := effect_vF_of_setsFlag hflag s
  rw [hc]
  exact flagByte_zero_or_one c

/-! ### The collaborator (10_state.md R26, R28) -/

/-- What `Fx65` loads depends on the registers alone. -/
theorem loadRegs_v_congr {s u : State} (h : u.v = s.v) (l : List (Reg × Byte)) :
    (u.loadRegs l).v = (s.loadRegs l).v := by
  induction l generalizing s u with
  | nil => exact h
  | cons p l ih => exact ih (by rw [setV_v, setV_v, h])

theorem raises_setColl (s : State) (c : Collab) (i : Instr) : (s.setColl c).raises i = s.raises i := by
  cases i <;> rfl

theorem effect_setColl {i : Instr} (h : callsCollaborator i = false) (s : State) (c : Collab) :
    (s.setColl c).effect i = (s.effect i).setColl c := by
  cases i
  case ldVxMi x =>
    simp only [State.effect]
    rw [loadRegs_v_congr (setColl_v s c)]
    rfl
  all_goals cases h <;> rfl

/-- Settles O52: neither the fault an instruction raises nor the effect of one that makes no call looks at
the collaborator. -/
theorem onlyCallsSeeTheCollaborator : Obligations.OnlyCallsSeeTheCollaborator := by
  intro i s c hi
  rcases h : s.raises i with _ | ⟨f, a⟩
  · refine ⟨s.effect i, exec_of_not_raises h, ?_⟩
    rw [exec_of_not_raises (by rw [raises_setColl, h]), effect_setColl hi]
  · exact ⟨s.faulted i f a, exec_of_raises h, exec_of_raises (by rw [raises_setColl, h])⟩

end Sys2Proof.Machine

/-! ## Taking an input and reading the time, field by field (60_exceptions.md R184; log 6) -/

namespace Sys2Proof.Machine

section
variable {T : Type}

@[simp] theorem takeInput_v (s : State T) : s.takeInput.v = s.v := by unfold State.takeInput; split <;> rfl
@[simp] theorem takeInput_i (s : State T) : s.takeInput.i = s.i := by unfold State.takeInput; split <;> rfl
@[simp] theorem takeInput_pc (s : State T) : s.takeInput.pc = s.pc := by unfold State.takeInput; split <;> rfl
@[simp] theorem takeInput_stack (s : State T) : s.takeInput.stack = s.stack := by
  unfold State.takeInput; split <;> rfl
@[simp] theorem takeInput_sp (s : State T) : s.takeInput.sp = s.sp := by unfold State.takeInput; split <;> rfl
@[simp] theorem takeInput_dt (s : State T) : s.takeInput.dt = s.dt := by unfold State.takeInput; split <;> rfl
@[simp] theorem takeInput_st (s : State T) : s.takeInput.st = s.st := by unfold State.takeInput; split <;> rfl
@[simp] theorem takeInput_rng (s : State T) : s.takeInput.rng = s.rng := by unfold State.takeInput; split <;> rfl
@[simp] theorem takeInput_mem (s : State T) : s.takeInput.mem = s.mem := by unfold State.takeInput; split <;> rfl
@[simp] theorem takeInput_fault (s : State T) : s.takeInput.fault = s.fault := by
  unfold State.takeInput; split <;> rfl
@[simp] theorem takeInput_wait (s : State T) : s.takeInput.wait = s.wait := by
  unfold State.takeInput; split <;> rfl
@[simp] theorem takeInput_tInstr (s : State T) : s.takeInput.tInstr = s.tInstr := by
  unfold State.takeInput; split <;> rfl
@[simp] theorem takeInput_tTimer (s : State T) : s.takeInput.tTimer = s.tTimer := by
  unfold State.takeInput; split <;> rfl
@[simp] theorem takeInput_params (s : State T) : s.takeInput.params = s.params := by
  unfold State.takeInput; split <;> rfl
@[simp] theorem takeInput_coll (s : State T) : s.takeInput.coll = s.coll := by
  unfold State.takeInput; split <;> rfl
@[simp] theorem takeInput_clock (s : State T) : s.takeInput.clock = s.clock := by
  unfold State.takeInput; split <;> rfl
@[simp] theorem takeInput_keyPolls (s : State T) : s.takeInput.keyPolls = s.keyPolls := by
  unfold State.takeInput; split <;> rfl
@[simp] theorem takeInput_out (s : State T) : s.takeInput.out = s.out := by unfold State.takeInput; split <;> rfl
@[simp] theorem takeInput_getV (s : State T) (r : Reg) : s.takeInput.getV r = s.getV r := by
  unfold State.takeInput; split <;> rfl

end

/-! ## The delivery of a key (44_display_keypad.md R162; log 7) -/

theorem keyDelivered_of_wait {s : State} {x : Reg} (hf : s.fault = none) (hw : s.wait = some x) (k : Key) :
    keyDelivered k s = ((s.setV x (keyByte k)).advance).setWait none := by
  simp only [keyDelivered, hf, hw]

/-- A delivery changes nothing, or completes a wait. -/
theorem keyDelivered_cases (k : Key) (s : State) :
    keyDelivered k s = s ∨
      ∃ x, s.fault = none ∧ s.wait = some x ∧
        keyDelivered k s = ((s.setV x (keyByte k)).advance).setWait none := by
  unfold keyDelivered
  split
  · rename_i x hf hw
    exact .inr ⟨x, hf, hw, rfl⟩
  · exact .inl rfl

theorem keyDelivered_of_not_waiting {s : State} (h : ¬ s.Waiting) (k : Key) : keyDelivered k s = s := by
  rcases keyDelivered_cases k s with e | ⟨x, hf, hw, -⟩
  · exact e
  · exact absurd ⟨hf, hw ▸ Option.some_ne_none x⟩ h

@[simp] theorem keyDelivered_fault (k : Key) (s : State) : (keyDelivered k s).fault = s.fault := by
  rcases keyDelivered_cases k s with h | ⟨x, -, -, h⟩ <;> rw [h]
  rfl

/-! ## What follows the instruction tick of an invocation (60_exceptions.md R179, R184) -/

section
variable {T : Type} [LE T] [DecidableLE T] [Sub T]

theorem afterInstr_of_fault {now : T} {u : State T} (h : u.fault ≠ none) : afterInstr now u = u :=
  if_pos (Option.isSome_iff_ne_none.mpr h)

theorem afterInstr_of_no_fault {now : T} {u : State T} (h : u.fault = none) :
    afterInstr now u = timerCheck now true (u.setTInstr now) := by
  unfold afterInstr
  rw [h]
  rfl

end

/-! ## The invariant of the call stack (10_state.md R14 to R17) -/

/-- The clauses of `State.Inv` on the call stack. -/
structure State.StackInv (s : State) : Prop where
  size : s.stack.length = s.params.stackDepth
  bound : s.sp ≤ s.params.stackDepth
  vacated : ∀ k, s.sp ≤ k → s.stack.getD k 0 = 0
  returns : ∀ k, k < s.sp → 2 ≤ (s.stack.getD k 0).toNat ∧ (s.stack.getD k 0).toNat ≤ 0x1000

theorem State.Inv.stackInv {s : State} (h : s.Inv) : s.StackInv :=
  ⟨h.stackSize, h.spBound, h.vacated, h.returns⟩

/-- A push of a return address keeps the stack (R16, R84). -/
theorem State.StackInv.push {s : State} (h : s.StackInv) (hroom : s.sp ≠ s.params.stackDepth) {w : Word}
    (hw : 2 ≤ w.toNat ∧ w.toNat ≤ 0x1000) : (s.setSlot s.sp w (s.sp + 1)).StackInv := by
  have hlt : s.sp < s.params.stackDepth := Nat.lt_of_le_of_ne h.bound hroom
  have hlen : s.sp < s.stack.length := h.size ▸ hlt
  refine ⟨List.length_set.trans h.size, hlt, fun k hk => ?_, fun k hk => ?_⟩
  · exact (getD_set_slot s.stack s.sp k w hlen).trans
      ((if_neg (Nat.ne_of_gt hk)).trans (h.vacated k (Nat.le_of_lt hk)))
  · simp only [setSlot_stack, getD_set_slot s.stack s.sp k w hlen]
    by_cases he : k = s.sp
    · rwa [if_pos he]
    · rw [if_neg he]
      exact h.returns k (Nat.lt_of_le_of_ne (Nat.le_of_lt_succ hk) he)

/-- A pop clears the slot it vacates and keeps the rest (R17). -/
theorem State.StackInv.pop {s : State} (h : s.StackInv) (hpos : s.sp ≠ 0) :
    (s.setSlot (s.sp - 1) 0 (s.sp - 1)).StackInv := by
  have hlen : s.sp - 1 < s.stack.length := by
    have := h.size
    have := h.bound
    omega
  refine ⟨List.length_set.trans h.size, Nat.le_trans (Nat.sub_le _ _) h.bound, fun k hk => ?_, fun k hk => ?_⟩
  · refine (getD_set_slot s.stack (s.sp - 1) k 0 hlen).trans ?_
    by_cases he : k = s.sp - 1
    · rw [if_pos he]
    · rw [if_neg he]
      simp only [setSlot_sp] at hk
      exact h.vacated k (by omega)
  · simp only [setSlot_stack, setSlot_sp] at hk ⊢
    rw [getD_set_slot s.stack (s.sp - 1) k 0 hlen, if_neg (Nat.ne_of_lt hk)]
    exact h.returns k (Nat.lt_of_lt_of_le hk (Nat.sub_le _ _))

theorem raises_call_eq_none {s : State} {nnn : Imm12} :
    s.raises (.call nnn) = none ↔ s.sp ≠ s.params.stackDepth := by
  simp [State.raises]

theorem raises_ret_eq_none {s : State} : s.raises .ret = none ↔ s.sp ≠ 0 := by
  simp [State.raises]

/-- An effect keeps the call stack's invariant (R15 to R17). -/
theorem effect_stackInv {i : Instr} {s : State} (h : s.StackInv) (hr : s.raises i = none)
    (hpc : s.pc.toNat ≤ 0xFFE) : (s.effect i).StackInv := by
  cases i
  case call nnn =>
    have hret : (s.pc + 2).toNat = s.pc.toNat + 2 := (pc_add_toNat hpc).1
    obtain ⟨hz, hb, hv, hrt⟩ := h.push (raises_call_eq_none.mp hr) (w := s.pc + 2) (by omega)
    exact ⟨hz, hb, hv, hrt⟩
  case ret =>
    obtain ⟨hz, hb, hv, hrt⟩ := h.pop (raises_ret_eq_none.mp hr)
    exact ⟨hz, hb, hv, hrt⟩
  all_goals exact ⟨h.size, h.bound, h.vacated, h.returns⟩

/-! ## The invariant of memory (log 5) -/

theorem storeAtI_mem_wf {s : State} (hm : s.mem.wf) {bs : List Byte}
    (h : s.i.toNat + bs.length ≤ 0x1000) : (s.storeAtI bs).mem.wf :=
  Memory.writeBytes_wf hm h

/-- An effect's stores lie in memory, so they keep its canonical form (R45, R48). -/
theorem effect_mem_wf {i : Instr} {s : State} (hm : s.mem.wf) (hr : s.raises i = none) :
    (s.effect i).mem.wf := by
  cases i
  case ldBVx x =>
    obtain h | h := accessRaises_eq_none.mp hr
    · exact absurd h (by decide)
    · exact storeAtI_mem_wf hm h
  case ldMiVx x =>
    obtain h | h := accessRaises_eq_none.mp hr
    · exact absurd h (Nat.succ_ne_zero _)
    · exact storeAtI_mem_wf hm (by rwa [valuesUpTo_length])
  all_goals exact hm

/-! ## The invariant of the framebuffer (44_display_keypad.md R156) -/

theorem blankFb_shape (w h : Nat) : (blankFb w h).length = h ∧ ∀ row ∈ blankFb w h, row.length = w :=
  ⟨List.length_replicate, fun row hrow => by rw [List.eq_of_mem_replicate hrow, List.length_replicate]⟩

/-- A run of calls keeps the framebuffer's shape, whatever the parameters are. -/
theorem drawCells_shape {w h : Nat} (cells : List (Nat × Nat)) {s : State} (hl : s.coll.fb.length = h)
    (hw : ∀ row ∈ s.coll.fb, row.length = w) :
    (drawCells cells s).1.coll.fb.length = h ∧ ∀ row ∈ (drawCells cells s).1.coll.fb, row.length = w := by
  induction cells generalizing s with
  | nil => exact ⟨hl, hw⟩
  | cons p cells ih =>
    obtain ⟨hl', hw'⟩ := putPixel_shape hl hw (s.wrap p).1 (s.wrap p).2
      (pixelAt s.coll.fb (s.wrap p).1 (s.wrap p).2 ^^ true)
    exact ih (s := (collSetPixel p.1 p.2 true s).1) hl' hw'

theorem effect_fb_shape {w h : Nat} (i : Instr) {s : State} (hh : s.params.fbH = h) (hw : s.params.fbW = w)
    (hl : s.coll.fb.length = h) (hrow : ∀ row ∈ s.coll.fb, row.length = w) :
    (s.effect i).coll.fb.length = h ∧ ∀ row ∈ (s.effect i).coll.fb, row.length = w := by
  cases i
  case cls => exact hh ▸ hw ▸ blankFb_shape s.params.fbW s.params.fbH
  case drw x y n => exact drawCells_shape _ hl hrow
  all_goals exact ⟨hl, hrow⟩

/-! ## The bounds on pc (10_state.md R13) -/

theorem jumpV0_toNat (b : Byte) (nnn : Imm12) :
    (zextByte b + zextNnn nnn).toNat = b.toNat + nnn.toNat := by
  have hb := b.isLt
  have hn := nnn.isLt
  rw [BitVec.toNat_add, zextByte_toNat, zextNnn_toNat]
  omega

/-- A transfer leaves pc at most 10FE: its operand, a return address, or the sum of `Bnnn` (R13). -/
theorem effect_pc_le_of_transfer {i : Instr} {s : State} (ht : isTransfer i = true) (h : s.StackInv)
    (hr : s.raises i = none) : (s.effect i).pc.toNat ≤ 0x10FE := by
  cases i
  case jp nnn | call nnn =>
    have hn := nnn.isLt
    refine (zextNnn_toNat nnn).trans_le ?_
    omega
  case ret =>
    have hpos := raises_ret_eq_none.mp hr
    have htop := h.returns (s.sp - 1) (by omega)
    exact Nat.le_trans htop.2 (by decide)
  case jpV0 nnn =>
    have hb := (s.getV 0).isLt
    have hn := nnn.isLt
    refine (jumpV0_toNat (s.getV 0) nnn).trans_le ?_
    omega
  all_goals cases ht

/-- From a pc that a fetch can come from, an effect leaves pc at most 10FE (R13). -/
theorem effect_pc_le {i : Instr} {s : State} (h : s.StackInv) (hr : s.raises i = none)
    (hpc : s.pc.toNat ≤ 0xFFE) : (s.effect i).pc.toNat ≤ 0x10FE := by
  obtain ⟨h2, h4⟩ := pc_add_toNat hpc
  by_cases ht : isTransfer i = true
  · exact effect_pc_le_of_transfer ht h hr
  by_cases hs : isSkip i = true
  · rcases effect_pc_of_skip hs s with e | e <;> rw [e] <;> omega
  by_cases hk : ∃ x, i = .ldVxK x
  · obtain ⟨x, rfl⟩ := hk
    exact Nat.le_trans hpc (by decide)
  · rw [effect_pc_of_advance (Bool.eq_false_of_not_eq_true ht) (Bool.eq_false_of_not_eq_true hs)
      (fun x hx => hk ⟨x, hx⟩)]
    omega

/-- A wait that an effect begins leaves pc on its `Fx0A` (R161). -/
theorem effect_pc_of_wait {i : Instr} {s : State} (hw : s.wait = none) (h : (s.effect i).wait ≠ none) :
    (s.effect i).pc = s.pc := by
  cases i
  case ldVxK x => rfl
  all_goals exact absurd hw h

/-! ## Every part of a step keeps the invariant -/

/-- An effect keeps the invariant of a running core whose pc a word was fetched from. -/
theorem State.Inv.effect {i : Instr} {s : State} (h : s.Inv) (hrun : s.Running) (hpc : s.pc.toNat ≤ 0xFFE)
    (hr : s.raises i = none) : (s.effect i).Inv := by
  obtain ⟨hsize, hbound, hvacated, hreturns⟩ := effect_stackInv h.stackInv hr hpc
  have hfb := effect_fb_shape i rfl rfl h.fbRows h.fbCols
  exact {
    memWf := effect_mem_wf h.memWf hr
    stackSize := hsize
    spBound := hbound
    vacated := hvacated
    returns := hreturns
    pcBound := effect_pc_le h.stackInv hr hpc
    waitPc := fun hw => by rwa [effect_pc_of_wait hrun.2 hw]
    oneStop := fun _ => (effect_fault s i).trans hrun.1
    instrPast := by simpa using h.instrPast
    timerPast := by simpa using h.timerPast
    fbRows := by simpa using hfb.1
    fbCols := by simpa using hfb.2 }

/-- A fault taken by a core that is not waiting keeps the invariant (R176, R192). -/
theorem State.Inv.setFault {s : State} (h : s.Inv) (hw : s.wait = none) (r : FaultRecord) :
    (s.setFault r).Inv :=
  { h with oneStop := fun hne => absurd hw hne }

/-- The no-op of an unsupported word keeps the invariant (R91). -/
theorem State.Inv.diagnosed {s : State} (h : s.Inv) (hw : s.wait = none) (hpc : s.pc.toNat ≤ 0xFFE)
    (e : Event) : (s.emit e).advance.Inv :=
  { h with
    pcBound := by
      have := (pc_add_toNat hpc).1
      simp only [advance_pc, emit_pc]
      omega
    waitPc := fun hne => absurd hw hne }

/-- An instruction tick of a running core keeps the invariant (R80). -/
theorem State.Inv.instrTick {s u : State} (h : s.Inv) (hrun : s.Running) (hu : instrTick s = .next u) :
    u.Inv := by
  rcases instrTick_cases hu with ⟨a, -, rfl⟩ | ⟨w, i, hw, -, hx⟩ | ⟨w, hw, -, rfl⟩
  · exact h.setFault hrun.2 _
  · rcases exec_cases hx with ⟨c, a, -, rfl⟩ | ⟨hr, rfl⟩
    · exact h.setFault hrun.2 _
    · exact h.effect hrun (pc_of_fetch hw) hr
  · exact h.diagnosed hrun.2 (pc_of_fetch hw) _

/-- Taking an input and a time reading that is not before the last keep the invariant (R184). -/
theorem State.Inv.readTime {s : State} (h : s.Inv) {now : Time} (hnow : s.clock ≤ now) :
    (s.takeInput.setClock now).Inv := by
  obtain ⟨l, n, he⟩ := readTime_eq s now
  rw [he]
  exact { h with
    instrPast := Nat.le_trans h.instrPast hnow
    timerPast := Nat.le_trans h.timerPast hnow }

theorem State.Inv.takeInput {s : State} (h : s.Inv) : s.takeInput.Inv := by
  obtain ⟨l, n, he⟩ := takeInput_eq s
  rw [he]
  exact { h with }

theorem State.Inv.setTInstr {s : State} (h : s.Inv) {now : Time} (hnow : now ≤ s.clock) :
    (s.setTInstr now).Inv :=
  { h with instrPast := hnow }

/-- The timer half of an invocation keeps the invariant (R183, R184). -/
theorem State.Inv.timerCheck {s : State} (h : s.Inv) {now : Time} (hnow : now ≤ s.clock) (ran : Bool) :
    (timerCheck now ran s).Inv := by
  rcases timerCheck_cases now ran s with e | ⟨-, e⟩ <;> rw [e]
  · exact h
  · rw [timerTick_eq]
    exact { h with timerPast := hnow }

/-- A delivered key keeps the invariant: a wait stands at a pc that does not wrap (R162). -/
theorem State.Inv.keyDelivered {s : State} (h : s.Inv) (k : Key) : (keyDelivered k s).Inv := by
  rcases keyDelivered_cases k s with e | ⟨x, hf, hw, e⟩ <;> rw [e]
  · exact h
  · have hle : s.pc.toNat ≤ 0xFFE := h.waitPc (by rw [hw]; exact Option.some_ne_none x)
    have hpc := (pc_add_toNat hle).1
    exact { h with
      pcBound := by
        simp only [setWait_pc, advance_pc, setV_pc]
        omega
      waitPc := fun hne => absurd rfl hne
      oneStop := fun _ => hf }

/-- An instruction tick leaves what no instruction writes (R24). -/
theorem instrTick_sameEnvironment {s u : State} (hu : instrTick s = .next u) : s.SameEnvironment u := by
  rcases instrTick_cases hu with ⟨a, -, rfl⟩ | ⟨w, i, -, -, hx⟩ | ⟨w, -, -, rfl⟩
  · exact ⟨rfl, rfl, rfl, rfl, rfl, rfl⟩
  · rcases exec_cases hx with ⟨c, a, -, rfl⟩ | ⟨-, rfl⟩
    · exact ⟨rfl, rfl, rfl, rfl, rfl, rfl⟩
    · exact effect_sameEnvironment i s
  · exact ⟨rfl, rfl, rfl, rfl, rfl, rfl⟩

/-- Settles O57: each of the four things a step can do keeps the invariant. -/
theorem stepKeepsTheInvariant : Obligations.StepKeepsTheInvariant := by
  intro s t h hstep
  rcases step_cases hstep with ⟨-, rfl⟩ | ⟨-, k, -, rfl⟩ | ⟨-, k, p, -, rfl⟩ | ⟨hf, d, -, htick⟩
  · exact h
  · exact h.takeInput.keyDelivered k
  · exact { h.takeInput with }
  · have h0 : (s.takeInput.setClock (s.clock + d)).Inv := h.readTime (Nat.le_add_right _ _)
    rcases htick with ⟨-, rfl⟩ | ⟨hw, -, u, hu, rfl⟩
    · exact h0.timerCheck (Nat.le_refl _) false
    · have hrun : (s.takeInput.setClock (s.clock + d)).Running := by simp [State.Running, hf, hw]
      have hui : u.Inv := h0.instrTick hrun hu
      obtain ⟨-, -, -, hclock, -⟩ := instrTick_sameEnvironment hu
      by_cases huf : u.fault = none
      · rw [afterInstr_of_no_fault huf]
        exact (hui.setTInstr hclock.ge).timerCheck hclock.ge true
      · rwa [afterInstr_of_fault huf]

end Sys2Proof.Machine

/-! ## Decoding an encoding, and the words that decode to nothing (30_encoding.md R63 to R67) -/

namespace Sys2Proof

/-- Settles O1: the bytes of a word decode as the word does, and the word of an instruction decodes to it. -/
theorem decodeOfEncodeIsIdentity : Obligations.DecodeOfEncodeIsIdentity := by
  intro i rest
  rw [decode_wordBytes, decodeWord_encode]
  rfl

/-- Settles O5: each of the fourteen is one lookup in the opcode map. -/
theorem wordsOfTheSpecDecode : Obligations.WordsOfTheSpecDecode := by
  unfold Obligations.WordsOfTheSpecDecode
  decide

/-! ### When a word selects a row, by its fields (R64) -/

/-- A row that fixes every bit. -/
theorem maskAll_eq_iff {w v : Word} : w &&& 0xFFFF = v ↔ w = v :=
  ⟨fun h => (eq_of_maskAll h).symm, fun h => h ▸ BitVec.and_allOnes⟩

/-- A row that fixes the family. -/
theorem maskFamily_eq_iff {w : Word} {f : BitVec 4} : w &&& 0xF000 = formXyn f 0 0 0 ↔ familyOf w = f := by
  constructor
  · intro h
    rw [← formXyn_of_mask h, familyOf_formXyn]
  · rintro rfl
    rw [← formXyn_mask _ (fieldX w) (fieldY w) (nibble (fieldN w)), formXyn_fields]

/-- A row that fixes the family and the last nibble. -/
theorem maskFamilyN_eq_iff {w : Word} {f : BitVec 4} {n : Fin 16} :
    w &&& 0xF00F = formXyn f 0 0 (nibble n) ↔ familyOf w = f ∧ fieldN w = n := by
  constructor
  · intro h
    rw [← formXyn_of_maskN h, familyOf_formXyn, fieldN_formXyn]
    exact ⟨rfl, rfl⟩
  · rintro ⟨rfl, rfl⟩
    rw [← formXyn_maskN _ (fieldX w) (fieldY w), formXyn_fields]

/-- A row that fixes the family and the low byte. -/
theorem maskFamilyNn_eq_iff {w : Word} {f : BitVec 4} {nn : Byte} :
    w &&& 0xF0FF = formXnn f 0 nn ↔ familyOf w = f ∧ fieldNn w = nn := by
  constructor
  · intro h
    rw [← formXnn_of_maskByte h, familyOf_formXnn, fieldNn_formXnn]
    exact ⟨rfl, rfl⟩
  · rintro ⟨rfl, rfl⟩
    rw [← formXnn_maskByte _ (fieldX w), formXnn_fields]

/-! ### The rows of the map by what they fix (R65) -/

/-- The families every word of which is one instruction's. -/
def familyRows : List (BitVec 4) := [0x1, 0x2, 0x3, 0x4, 0x6, 0x7, 0xA, 0xB, 0xC, 0xD]

/-- The family and the last nibble of the rows that fix these two. -/
def nibbleRows : List (BitVec 4 × Fin 16) :=
  [(0x5, 0x0), (0x8, 0x0), (0x8, 0x1), (0x8, 0x2), (0x8, 0x3), (0x8, 0x4), (0x8, 0x5), (0x8, 0x6), (0x8, 0x7),
    (0x8, 0xE), (0x9, 0x0)]

/-- The family and the low byte of the rows that fix these two. -/
def byteRows : List (BitVec 4 × Byte) :=
  [(0xE, 0x9E), (0xE, 0xA1), (0xF, 0x07), (0xF, 0x0A), (0xF, 0x15), (0xF, 0x18), (0xF, 0x1E), (0xF, 0x29),
    (0xF, 0x33), (0xF, 0x55), (0xF, 0x65)]

/-- The mask and value of every row, grouped by the mask. -/
def rowPatterns : List (Word × Word) :=
  [0x00E0, 0x00EE].map (fun v => (0xFFFF, v)) ++ familyRows.map (fun f => (0xF000, formXyn f 0 0 0)) ++
    nibbleRows.map (fun p => (0xF00F, formXyn p.1 0 0 (nibble p.2))) ++
    byteRows.map (fun p => (0xF0FF, formXnn p.1 0 p.2))

theorem opTable_perm_rowPatterns : (opTable.map fun r => (r.mask, r.value)).Perm rowPatterns := by decide

/-- A word that decodes to nothing selects no row of the map, by the fields each row fixes (R66). -/
theorem decodeWord_error_iff {w : Word} :
    decodeWord w = .error (.unsupportedOpcode w) ↔
      w ∉ [0x00E0, 0x00EE] ∧ familyOf w ∉ familyRows ∧
        (∀ p ∈ nibbleRows, ¬ (familyOf w = p.1 ∧ fieldN w = p.2)) ∧
        ∀ p ∈ byteRows, ¬ (familyOf w = p.1 ∧ fieldNn w = p.2) := by
  have hrows : decodeWord w = .error (.unsupportedOpcode w) ↔
      ∀ p ∈ opTable.map fun r => (r.mask, r.value), ¬ w &&& p.1 = p.2 := by
    rw [List.forall_mem_map]
    unfold decodeWord
    cases h : opTable.find? (fun r => r.selects w) with
    | none => simpa [OpRow.selects] using h
    | some r =>
      have hsel : w &&& r.mask = r.value := by simpa [OpRow.selects] using List.find?_some h
      simp only [reduceCtorEq, false_iff]
      exact fun hall => hall r (List.mem_of_find?_eq_some h) hsel
  simp only [hrows, opTable_perm_rowPatterns.mem_iff, rowPatterns, List.forall_mem_append,
    List.forall_mem_map (P := fun p : Word × Word => ¬ w &&& p.1 = p.2),
    maskAll_eq_iff, maskFamily_eq_iff, maskFamilyN_eq_iff, maskFamilyNn_eq_iff,
    List.forall_mem_ne, and_assoc]

/-- Settles O3: what is left to fix depends on the family, so the sixteen families are the cases. -/
theorem unsupportedWordsAreThoseOfTheTable : Obligations.UnsupportedWordsAreThoseOfTheTable := by
  intro w
  have hcls : w = 0x00E0 → familyOf w = 0x0 := fun h => h ▸ rfl
  have hret : w = 0x00EE → familyOf w = 0x0 := fun h => h ▸ rfl
  rw [decodeWord_error_iff]
  simp only [familyRows, nibbleRows, byteRows, List.forall_mem_cons]
  have hfamily : ∀ f : BitVec 4, f ∈ [0x0, 0x1, 0x2, 0x3, 0x4, 0x5, 0x6, 0x7, 0x8, 0x9, 0xA, 0xB, 0xC, 0xD,
      0xE, 0xF] := by decide
  have hlast : ∀ n : Fin 16, n ∈ [0x8, 0x9, 0xA, 0xB, 0xC, 0xD, 0xF] ↔
      n ∉ [0x0, 0x1, 0x2, 0x3, 0x4, 0x5, 0x6, 0x7, 0xE] := by decide
  have hw := hfamily (familyOf w)
  rw [hlast]
  generalize familyOf w = f at hcls hret hw ⊢
  simp only [List.mem_cons (a := f), List.not_mem_nil, or_false] at hw
  rcases hw with rfl | rfl | rfl | rfl | rfl | rfl | rfl | rfl | rfl | rfl | rfl | rfl | rfl | rfl | rfl | rfl <;>
    simp_all

end Sys2Proof

/-! ## The instruction tick for any `TIME` (40_flow.md R80, 60_exceptions.md R175) -/

namespace Sys2Proof.Machine

section
variable {T : Type}

theorem execWord_of_ok {w : Word} {i : Instr} (h : decodeWord w = .ok i) (s : State T) :
    execWord w s = execute i s := by
  simp only [execWord, h]

theorem execWord_of_unsupported {w : Word} (h : decodeWord w = .error (.unsupportedOpcode w)) (s : State T) :
    execWord w s = execUnsupported w s := by
  simp only [execWord, h]

theorem instrTick_of_fetch_ok {s : State T} {w : Word} (h : s.fetch = .ok w) :
    instrTick s = execWord w s := by
  simp only [instrTick, h]

theorem instrTick_of_fetch_error {s : State T} {a : Nat} (h : s.fetch = .error a) :
    instrTick s = raise .memoryFault none (some a) s := by
  simp only [instrTick, h]

/-- An instruction tick always answers a next state, in one of three ways (log 11). -/
theorem instrTick_next_cases (s : State T) :
    (∃ a, s.fetch = .error a ∧ instrTick s = .next (s.setFault ⟨.memoryFault, s.pc, none, some a⟩)) ∨
    (∃ w i, s.fetch = .ok w ∧ decodeWord w = .ok i ∧ instrTick s = .next (s.after i)) ∨
    (∃ w, s.fetch = .ok w ∧ decodeWord w = .error (.unsupportedOpcode w) ∧
      instrTick s = .next (s.emit (.diagUnsupportedOpcode w s.pc)).advance) := by
  cases hw : s.fetch with
  | error a => exact .inl ⟨a, rfl, instrTick_of_fetch_error hw⟩
  | ok w =>
    rw [instrTick_of_fetch_ok hw]
    cases hi : decodeWord w with
    | ok i => exact .inr (.inl ⟨w, i, rfl, hi, (execWord_of_ok hi s).trans (execute_next i s)⟩)
    | error e =>
      obtain rfl := decodeWord_error hi
      exact .inr (.inr ⟨w, rfl, hi, execWord_of_unsupported hi s⟩)

theorem instrTick_next (s : State T) : ∃ u, instrTick s = .next u := by
  rcases instrTick_next_cases s with ⟨a, -, h⟩ | ⟨w, i, -, -, h⟩ | ⟨w, -, -, h⟩
  · exact ⟨_, h⟩
  · exact ⟨_, h⟩
  · exact ⟨_, h⟩

theorem after_tTimer_params (s : State T) (i : Instr) :
    (s.after i).tTimer = s.tTimer ∧ (s.after i).params = s.params := by
  rcases after_cases s i with ⟨c, a, -, h⟩ | ⟨-, h⟩ <;> rw [h]
  · exact ⟨rfl, rfl⟩
  · exact ⟨effect_tTimer s i, effect_params s i⟩

/-- An instruction tick moves neither the timer clock nor a parameter (R24). -/
theorem instrTick_tTimer_params {s u : State T} (hu : instrTick s = .next u) :
    u.tTimer = s.tTimer ∧ u.params = s.params := by
  rcases instrTick_next_cases s with ⟨a, -, h⟩ | ⟨w, i, -, -, h⟩ | ⟨w, -, -, h⟩ <;>
    obtain rfl := Host.Outcome.next.inj (hu.symm.trans h)
  · exact ⟨rfl, rfl⟩
  · exact after_tTimer_params s i
  · exact ⟨rfl, rfl⟩

end

/-! ## The scheduler for any `TIME` (60_exceptions.md R184, R188; D10, D13) -/

section
variable {T : Type} [LE T] [DecidableLE T] [Sub T]

theorem timerCheck_of_over {now : T} {ran : Bool} {s : State T}
    (hc : s.wait = none ∨ ran = true ∨ s.params.keyWait = .running)
    (h : s.params.pTimer ≤ now - s.tTimer) : timerCheck now ran s = (timerTick s).setTTimer now :=
  if_pos ⟨hc, h⟩

theorem timerCheck_of_not_over {now : T} {ran : Bool} {s : State T}
    (h : ¬ s.params.pTimer ≤ now - s.tTimer) : timerCheck now ran s = s :=
  if_neg fun hc => h hc.2

/-- Under the policy `frozen` the timers stop while a wait is on (R188). -/
theorem timerCheck_of_frozen {now : T} {s : State T} (hw : s.wait ≠ none) (hk : s.params.keyWait = .frozen) :
    timerCheck now false s = s := by
  refine if_neg fun hc => ?_
  rcases hc.1 with h | h | h
  · exact hw h
  · exact Bool.noConfusion h
  · rw [hk] at h
    cases h

variable [Add T]

theorem stepInput_of_halted {s : State T} (h : s.Halted) : stepInput s = .next s :=
  if_pos (Option.isSome_iff_ne_none.mpr h)

/-- A step on an invocation at which the instruction clock is over and no wait is on runs the instruction
tick (R184). -/
theorem stepInput_of_instr {s : State T} {d : T} (hr : s.Running) (hi : s.nextInput = .invoke d)
    (h : s.params.pInstr ≤ s.clock + d - s.tInstr) :
    stepInput s = onNext (afterInstr (s.clock + d)) (instrTick (s.takeInput.setClock (s.clock + d))) := by
  rw [stepInput_invoke hr.1 hi, invoke, if_neg (by simp [hr.1]), if_pos]
  simpa using And.intro hr.2 h

/-- A step on any other invocation is the timer half alone (R184, R188). -/
theorem stepInput_of_no_instr {s : State T} {d : T} (hf : s.fault = none) (hi : s.nextInput = .invoke d)
    (h : ¬ (s.wait = none ∧ s.params.pInstr ≤ s.clock + d - s.tInstr)) :
    stepInput s = .next (timerCheck (s.clock + d) false (s.takeInput.setClock (s.clock + d))) := by
  rw [stepInput_invoke hf hi, invoke, if_neg (by simp [hf]), if_neg]
  simpa using h

end

/-- Settles O59: the timer half alone when no instruction tick is due, else the tick and, after one that did
not fault, the timer half again. -/
theorem schedulerForAnyTime : Obligations.SchedulerForAnyTime := by
  refine ⟨step_eq, fun T _ _ _ _ s d hi => ?_⟩
  intro now s0 instrOver timerOver
  have hp : s0.params = s.params := takeInput_params s
  have ht : s0.tTimer = s.tTimer := takeInput_tTimer s
  have hw0 : s0.wait = s.wait := takeInput_wait s
  have hover : timerOver ↔ s0.params.pTimer ≤ now - s0.tTimer := by rw [hp, ht]
  have hoverTick {u : State T} (hu : instrTick s0 = .next u) :
      timerOver ↔ (u.setTInstr now).params.pTimer ≤ now - (u.setTInstr now).tTimer := by
    rw [hover, setTInstr_params, setTInstr_tTimer, (instrTick_tTimer_params hu).1, (instrTick_tTimer_params hu).2]
  have htick {u : State T} (hr : s.Running) (hio : instrOver) (hu : instrTick s0 = .next u) :
      stepInput s = .next (afterInstr now u) := by
    rw [stepInput_of_instr hr hi hio, show instrTick (s.takeInput.setClock (s.clock + d)) = .next u from hu,
      onNext_next]
  have hwaiting (hwt : s.Waiting) : stepInput s = .next (timerCheck now false s0) :=
    stepInput_of_no_instr hwt.1 hi fun h => hwt.2 h.1
  refine ⟨stepInput_of_halted, fun hr hio hto => ?_, fun hr hio hto => ?_, fun u hr hio hu hf hto => ?_,
    fun u hr hio hu hf hto => ?_, fun u hr hio hu hf => ?_, fun hwt hk => ?_, fun hwt hk hto => ?_,
    fun hwt hk hto => ?_⟩
  · rw [stepInput_of_no_instr hr.1 hi fun h => hio h.2, timerCheck_of_not_over (hover.not.mp hto)]
  · rw [stepInput_of_no_instr hr.1 hi fun h => hio h.2,
      timerCheck_of_over (.inl (hw0.trans hr.2)) (hover.mp hto)]
  · rw [htick hr hio hu, afterInstr_of_no_fault hf, timerCheck_of_not_over ((hoverTick hu).not.mp hto)]
  · rw [htick hr hio hu, afterInstr_of_no_fault hf, timerCheck_of_over (.inr (.inl rfl)) ((hoverTick hu).mp hto)]
  · rw [htick hr hio hu, afterInstr_of_fault hf]
  · rw [hwaiting hwt, timerCheck_of_frozen (hw0 ▸ hwt.2) (hp ▸ hk)]
  · rw [hwaiting hwt, timerCheck_of_not_over (hover.not.mp hto)]
  · rw [hwaiting hwt, timerCheck_of_over (.inr (.inr (hp ▸ hk))) (hover.mp hto)]

/-- Settles O45: the five clauses on a running core of the scheduler for any `TIME`. -/
theorem invocationOfARunningCore : Obligations.InvocationOfARunningCore := by
  intro s d hr hi
  obtain ⟨-, hnone, htimer, hinstr, hboth, hfault, -⟩ := schedulerForAnyTime.2 Time s d hi
  exact ⟨fun h1 h2 => hnone hr (Nat.not_le_of_lt h1) (Nat.not_le_of_lt h2),
    fun h1 h2 => htimer hr (Nat.not_le_of_lt h1) h2,
    fun u h1 hu hf h2 => hinstr u hr h1 hu hf (Nat.not_le_of_lt h2),
    fun u h1 hu hf h2 => hboth u hr h1 hu hf h2, fun u h1 hu hf => hfault u hr h1 hu hf⟩

/-- Settles O46: the three clauses on a waiting core of the scheduler for any `TIME`. -/
theorem invocationOfAWaitingCore : Obligations.InvocationOfAWaitingCore := by
  intro s d hw hi
  obtain ⟨-, -, -, -, -, -, hfrozen, hearly, hlate⟩ := schedulerForAnyTime.2 Time s d hi
  exact ⟨hfrozen hw, fun hk h => hearly hw hk (Nat.not_le_of_lt h), hlate hw⟩

/-- Settles O48: a halted core's step is the first clause of the scheduler. -/
theorem haltedForEver : Obligations.HaltedForEver := fun s _ h =>
  stepInput_of_halted (show s.fault ≠ none by rw [h]; exact Option.some_ne_none _)

/-- Settles O10: the tick is due, and what it executes is the fetched word, read before the time is. -/
theorem stepRunsTheDecodedInstruction : Obligations.StepRunsTheDecodedInstruction := by
  intro s d hr hi hover
  have hfetch : (s.takeInput.setClock (s.clock + d)).fetch = s.fetch := by simp [State.fetch]
  have hstep := stepInput_of_instr hr hi hover
  refine ⟨fun w i hw hd => ?_, fun w hw hd => ?_, fun w hw => ?_, fun a ha => ?_⟩
  · rw [step_eq, hstep, instrTick_of_fetch_ok (hfetch.trans hw), execWord_of_ok hd, execute_eq]
  · rw [step_eq, hstep, instrTick_of_fetch_ok (hfetch.trans hw), execWord_of_unsupported hd]
  · rw [step_eq, hstep, instrTick_of_fetch_ok (hfetch.trans hw)]
  · rw [step_eq, hstep, instrTick_of_fetch_error (hfetch.trans ha)]

/-- A faulting tick leaves all but FAULT and the outputs as it was (R176, R177). -/
theorem instrTick_fault_eq {s u : State} (hu : instrTick s = .next u) (hf : s.fault = none)
    (huf : u.fault ≠ none) : ∃ r, r.pc = s.pc ∧ u = s.setFault r := by
  rcases instrTick_faults hu hf with h | h
  · exact h
  · exact absurd h huf

/-- Settles O47: the instruction clock is over whenever the timer clock is, so the step is one of the last two
clauses of an invocation of a running core. -/
theorem timerTicksAreSeparatedByInstructions : Obligations.TimerTicksAreSeparatedByInstructions := by
  intro s t d hr hi hper hlast htimer hstep
  have hinstr : s.params.pInstr ≤ s.clock + d - s.tInstr :=
    Nat.le_trans hper (Nat.le_trans htimer (Nat.sub_le_sub_left hlast _))
  obtain ⟨u, hu⟩ := instrTick_next (s.takeInput.setClock (s.clock + d))
  obtain ⟨-, -, -, hboth, hfault⟩ := invocationOfARunningCore s d hr hi
  by_cases huf : u.fault = none
  · obtain rfl := Host.Outcome.next.inj (hstep.symm.trans (hboth u hinstr hu huf htimer))
    refine .inl ⟨?_, ?_, rfl⟩
    · rw [timerTick_eq]
      exact huf
    · rw [timerTick_eq]
      rfl
  · obtain rfl := Host.Outcome.next.inj (hstep.symm.trans (hfault u hinstr hu huf))
    obtain ⟨r, -, rfl⟩ := instrTick_fault_eq hu (by simpa using hr.1) huf
    exact .inr ⟨huf, by simp, by simp, by simp, by simp⟩

/-- Settles O49: only an instruction tick sets FAULT, and a faulting tick is one `setFault`. -/
theorem faultsArePrecise : Obligations.FaultsArePrecise := by
  intro s t hf hstep ht
  rcases step_cases hstep with ⟨hne, -⟩ | ⟨-, k, -, rfl⟩ | ⟨-, k, p, -, rfl⟩ | ⟨-, d, hi, htick⟩
  · exact absurd hf hne
  · exact absurd ((keyDelivered_fault k _).trans ((takeInput_fault s).trans hf)) ht
  · exact absurd ((takeInput_fault s).trans hf) ht
  · rcases htick with ⟨-, rfl⟩ | ⟨-, -, u, hu, rfl⟩
    · rw [timerCheck_fault] at ht
      exact absurd ((takeInput_fault s).trans hf) ht
    · have huf : u.fault ≠ none := by
        intro h
        rw [afterInstr_of_no_fault h, timerCheck_fault] at ht
        exact ht h
      obtain ⟨r, hpc, rfl⟩ := instrTick_fault_eq hu ((takeInput_fault s).trans hf) huf
      exact ⟨d, r, hi, hpc.trans (takeInput_pc s), afterInstr_of_fault huf⟩

end Sys2Proof.Machine

/-! ## Where `MemoryFault` is raised (60_exceptions.md R175) -/

namespace Sys2Proof.Machine

/-- An access raises `MemoryFault` exactly when it reaches past FFF (R126). -/
theorem accessRaises_memoryFault_iff {s : State} {len : Nat} :
    (∃ a, s.accessRaises len = some (.memoryFault, a)) ↔ 0 < len ∧ 0x1000 < s.i.toNat + len := by
  constructor
  · rintro ⟨a, ha⟩
    have hne : ¬ (len = 0 ∨ s.i.toNat + len ≤ 0x1000) := fun h => by
      rw [accessRaises_eq_none.mpr h] at ha
      cases ha
    omega
  · rintro ⟨h0, h⟩
    exact ⟨_, accessRaises_of_lt h0 h⟩

/-- The points (c) to (f) of R175 are where an instruction's fault is a `MemoryFault`. -/
theorem raisesMemoryFault_iff {s : State} (i : Instr) :
    RaisesMemoryFault s i ↔ ∃ a, s.raises i = some (.memoryFault, a) := by
  cases i
  case ldBVx | ldMiVx | ldVxMi | drw =>
    refine Iff.trans ?_ accessRaises_memoryFault_iff.symm
    simp only [RaisesMemoryFault]
    omega
  all_goals simp [RaisesMemoryFault, State.raises]

/-- A fetch fails exactly above FFE, naming the first address outside memory (R60). -/
theorem fetch_of_lt {s : State} (h : 0xFFE < s.pc.toNat) : s.fetch = .error (max s.pc.toNat 0x1000) := by
  rw [fetch_eq, if_neg (by simp only [Config.memSize]; omega)]
  rfl

/-- From a state without a fault, an instruction leaves one with cause `MemoryFault` exactly at its points of
the list. -/
theorem exec_memoryFault_iff {i : Instr} {s t : State} (hx : exec i s = .next t) (hf : s.fault = none) :
    (∃ r, t.fault = some r ∧ r.cause = .memoryFault) ↔ RaisesMemoryFault s i := by
  rw [raisesMemoryFault_iff]
  rcases exec_cases hx with ⟨c, a, hr, rfl⟩ | ⟨hr, rfl⟩
  · rw [hr]
    constructor
    · rintro ⟨r, hrec, hc⟩
      obtain rfl := Option.some.inj hrec
      exact ⟨a, congrArg (fun c => some (c, a)) hc⟩
    · rintro ⟨b, hb⟩
      exact ⟨_, rfl, (Prod.mk.inj (Option.some.inj hb)).1⟩
  · simp [hr, hf]

/-- Settles O50: of the three ways a tick goes, a failed fetch is (a) and (b) of the list, an instruction faults
with `MemoryFault` exactly at (c) to (f), and an unsupported word never does. -/
theorem memoryFaultRaisingPoints : Obligations.MemoryFaultRaisingPoints := by
  intro s t hf htick
  constructor
  · rcases instrTick_cases htick with ⟨a, ha, rfl⟩ | ⟨w, i, hw, hi, hx⟩ | ⟨w, hw, hu, rfl⟩
    · refine iff_of_true ⟨_, rfl, rfl⟩ (.inl (Nat.lt_of_not_le fun hle => ?_))
      rw [fetch_eq, if_pos (by simp only [Config.memSize]; omega)] at ha
      cases ha
    · rw [exec_memoryFault_iff hx hf]
      constructor
      · exact fun h => .inr ⟨w, i, hw, hi, h⟩
      · rintro (h | ⟨w', i', hw', hi', h⟩)
        · exact absurd (pc_of_fetch hw) (Nat.not_le_of_lt h)
        · obtain rfl := Except.ok.inj (hw.symm.trans hw')
          obtain rfl := Except.ok.inj (hi.symm.trans hi')
          exact h
    · refine iff_of_false (by simp [hf]) ?_
      rintro (h | ⟨w', i, hw', hi, -⟩)
      · exact absurd (pc_of_fetch hw) (Nat.not_le_of_lt h)
      · obtain rfl := Except.ok.inj (hw.symm.trans hw')
        cases hu.symm.trans hi
  · intro hpc
    rw [instrTick_of_fetch_error (fetch_of_lt hpc)] at htick
    exact (Host.Outcome.next.inj htick).symm

end Sys2Proof.Machine

/-! ## The inputs other than an invocation (44_display_keypad.md R162, R163) -/

namespace Sys2Proof.Machine

theorem step_of_keyDelivered {s : State} {k : Key} (hf : s.fault = none) (hi : s.nextInput = .keyDelivered k) :
    step s = .next (keyDelivered k s.takeInput) := by
  rw [step_eq, stepInput, if_neg (by simp [hf]), hi]
  rfl

theorem step_of_keyState {s : State} {k : Key} {p : Bool} (hf : s.fault = none)
    (hi : s.nextInput = .keyState k p) : step s = .next (userKey k p s.takeInput) := by
  rw [step_eq, stepInput, if_neg (by simp [hf]), hi]
  rfl

/-- Settles O43: the delivery's three writes, on the state with the input taken. -/
theorem keyDeliveredCompletesTheWait : Obligations.KeyDeliveredCompletesTheWait := by
  intro x k s hf hw hi
  have hdeliver := keyDelivered_of_wait ((takeInput_fault s).trans hf) ((takeInput_wait s).trans hw) k
  refine ⟨_, (step_of_keyDelivered hf hi).trans (congrArg Host.Outcome.next hdeliver), ?_, ?_, ⟨?_, rfl⟩,
    fun r hr => ?_, ?_, ?_, fun a => ?_, ⟨?_, ?_⟩, ⟨?_, ?_⟩, ?_, ?_, ?_, ?_, ?_, ?_⟩
  · rw [setWait_getV, advance_getV, setV_getV_self, keyByte_toNat]
  · simp
  · exact (takeInput_fault s).trans hf
  · rw [setWait_getV, advance_getV, setV_getV_ne hr, takeInput_getV]
  · simp
  · simp
  · exact congrArg (Memory.byteAt · a) (takeInput_mem s)
  all_goals simp

/-- Settles O44: a moved key is one write of the keys, and a delivery outside a wait is none. -/
theorem keyInputsOutsideAWait : Obligations.KeyInputsOutsideAWait := by
  intro s k hf
  refine ⟨fun p hi => ?_, fun hw hi => ?_⟩
  · refine ⟨_, step_of_keyState hf hi, ?_, fun j hj => ?_, ?_, ?_, ?_, ?_, ?_, ⟨fun r => ?_, ?_⟩, fun a => ?_,
      ⟨?_, ?_⟩, ⟨?_, ?_⟩, ?_, ⟨?_, ?_⟩, ?_, ?_, ?_⟩
    · exact Vector.getElem_set_self k.isLt
    · rw [← takeInput_coll s]
      exact Vector.getElem_set_ne k.isLt j.isLt fun h => hj (Fin.ext h.symm)
    case refine_10 => exact congrArg (Memory.byteAt · a) (takeInput_mem s)
    all_goals simp [userKey]
  · rw [step_of_keyDelivered hf hi, keyDelivered_of_not_waiting fun h => h.2 ((takeInput_wait s).trans hw)]

end Sys2Proof.Machine

/-! ## Every step answers, and none goes back (60_exceptions.md R176, R184; logs 6, 10 and 11) -/

namespace Sys2Proof.Machine

theorem step_next (s : State) : ∃ t, step s = .next t := by
  rw [step_eq]
  by_cases hf : s.fault = none
  · cases hi : s.nextInput with
    | keyDelivered k => exact ⟨_, step_of_keyDelivered hf hi⟩
    | keyState k p => exact ⟨_, step_of_keyState hf hi⟩
    | invoke d =>
      by_cases h : s.wait = none ∧ s.params.pInstr ≤ s.clock + d - s.tInstr
      · obtain ⟨u, hu⟩ := instrTick_next (s.takeInput.setClock (s.clock + d))
        rw [stepInput_of_instr ⟨hf, h.1⟩ hi h.2, hu]
        exact ⟨_, rfl⟩
      · exact ⟨_, stepInput_of_no_instr hf hi h⟩
  · exact ⟨s, stepInput_of_halted hf⟩

/-- Settles O53: an instruction answers the state after it, and so does a step, whatever input it takes. -/
theorem everyStepAnswersANextState : Obligations.EveryStepAnswersANextState :=
  ⟨fun i s => ⟨s.after i, exec_eq i s⟩, step_next⟩

/-- `t` has the parameters and the seed of `s`, no earlier time and no fewer draws, and keeps its outputs. -/
def State.ForwardTo (s t : State) : Prop :=
  t.params = s.params ∧ s.clock ≤ t.clock ∧ t.rng.seed = s.rng.seed ∧ s.rng.draws ≤ t.rng.draws ∧
    ∃ l, t.out = s.out ++ l

theorem State.ForwardTo.trans {s t u : State} (h : s.ForwardTo t) (h' : t.ForwardTo u) : s.ForwardTo u := by
  obtain ⟨hp, hc, hs, hd, l, ho⟩ := h
  obtain ⟨hp', hc', hs', hd', l', ho'⟩ := h'
  exact ⟨hp'.trans hp, hc.trans hc', hs'.trans hs, hd.trans hd', l ++ l', by rw [ho', ho, List.append_assoc]⟩

/-- What writes neither a parameter, the clock nor the generator goes forward when its outputs do. -/
theorem State.ForwardTo.of_out {s t : State} (hp : t.params = s.params) (hc : t.clock = s.clock)
    (hg : t.rng = s.rng) {l : List Event} (ho : t.out = s.out ++ l) : s.ForwardTo t :=
  ⟨hp, hc.ge, congrArg Rng.seed hg, (congrArg Rng.draws hg).ge, l, ho⟩

theorem State.ForwardTo.refl (s : State) : s.ForwardTo s := .of_out rfl rfl rfl (List.append_nil _).symm

theorem State.ForwardTo.readTime (s : State) {now : Time} (h : s.clock ≤ now) :
    s.ForwardTo (s.takeInput.setClock now) :=
  ⟨takeInput_params s, h, congrArg Rng.seed (takeInput_rng s), (congrArg Rng.draws (takeInput_rng s)).ge, [],
    by simp⟩

theorem State.ForwardTo.takeInput (s : State) : s.ForwardTo s.takeInput :=
  .of_out (takeInput_params s) (takeInput_clock s) (takeInput_rng s) (l := []) (by simp)

theorem State.ForwardTo.setFault (s : State) (r : FaultRecord) : s.ForwardTo (s.setFault r) :=
  .of_out rfl rfl rfl (setFault_out s r)

/-- An effect only appends to the outputs (R6; log 10). -/
theorem effect_out_append (s : State) (i : Instr) : ∃ l, (s.effect i).out = s.out ++ l := by
  cases i
  case cls | skp | sknp | ldVxK => exact ⟨_, rfl⟩
  case drw x y n => exact ⟨_, drawCells_out _ s⟩
  all_goals exact ⟨[], (List.append_nil _).symm⟩

/-- An effect draws from the generator or leaves it (R143, R144). -/
theorem effect_rng_forward (s : State) (i : Instr) :
    (s.effect i).rng.seed = s.rng.seed ∧ s.rng.draws ≤ (s.effect i).rng.draws := by
  cases i
  case rnd x nn => exact ⟨rfl, Nat.le_succ _⟩
  all_goals exact ⟨rfl, Nat.le_refl _⟩

theorem State.ForwardTo.effect (s : State) (i : Instr) : s.ForwardTo (s.effect i) :=
  have ⟨hseed, hdraws⟩ := effect_rng_forward s i
  ⟨effect_params s i, (effect_clock s i).ge, hseed, hdraws, effect_out_append s i⟩

theorem State.ForwardTo.instrTick {s u : State} (hu : instrTick s = .next u) : s.ForwardTo u := by
  rcases instrTick_cases hu with ⟨a, -, rfl⟩ | ⟨w, i, -, -, hx⟩ | ⟨w, -, -, rfl⟩
  · exact .setFault s _
  · rcases exec_cases hx with ⟨c, a, -, rfl⟩ | ⟨-, rfl⟩
    · exact .setFault s _
    · exact .effect s i
  · exact .of_out rfl rfl rfl rfl

theorem State.ForwardTo.timerCheck (now : Time) (ran : Bool) (s : State) :
    s.ForwardTo (timerCheck now ran s) := by
  rcases timerCheck_cases now ran s with h | ⟨-, h⟩ <;> rw [h]
  · exact .refl s
  · rw [timerTick_eq]
    by_cases hst : s.st = 0
    · exact .of_out rfl rfl rfl (l := []) (by simp [hst])
    · exact .of_out rfl rfl rfl (if_neg hst)

theorem State.ForwardTo.afterInstr (now : Time) (u : State) : u.ForwardTo (afterInstr now u) := by
  by_cases h : u.fault = none
  · rw [afterInstr_of_no_fault h]
    exact .timerCheck now true (u.setTInstr now)
  · rw [afterInstr_of_fault h]
    exact .refl u

theorem State.ForwardTo.keyDelivered (k : Key) (s : State) : s.ForwardTo (keyDelivered k s) := by
  rcases keyDelivered_cases k s with h | ⟨x, -, -, h⟩ <;> rw [h]
  · exact .refl s
  · exact .of_out rfl rfl rfl (List.append_nil _).symm

/-- Settles O54: each part of a step goes forward, and so does their sequence. -/
theorem stepNeverGoesBack : Obligations.StepNeverGoesBack := by
  intro s t hstep
  rcases step_cases hstep with ⟨-, rfl⟩ | ⟨-, k, -, rfl⟩ | ⟨-, k, p, -, rfl⟩ | ⟨-, d, -, htick⟩
  · exact State.ForwardTo.refl t
  · exact (State.ForwardTo.takeInput s).trans (.keyDelivered k _)
  · exact State.ForwardTo.takeInput s
  · have hread : s.ForwardTo (s.takeInput.setClock (s.clock + d)) := .readTime s (Nat.le_add_right _ _)
    rcases htick with ⟨-, rfl⟩ | ⟨-, -, u, hu, rfl⟩
    · exact hread.trans (.timerCheck _ _ _)
    · exact (hread.trans (.instrTick hu)).trans (.afterInstr _ u)

end Sys2Proof.Machine

/-! ## The unit of time (00_scope.md R4; log 1) -/

namespace Sys2Proof.Machine

/-- A run of calls reads and writes no time. -/
theorem drawCells_scaleTime (c : Nat) (cells : List (Nat × Nat)) (s : State) :
    drawCells cells (s.scaleTime c) = ((drawCells cells s).1.scaleTime c, (drawCells cells s).2) := by
  induction cells generalizing s with
  | nil => rfl
  | cons p cells ih =>
    have hfirst : collSetPixel p.1 p.2 true (s.scaleTime c) =
        ((collSetPixel p.1 p.2 true s).1.scaleTime c, (collSetPixel p.1 p.2 true s).2) := rfl
    simp only [drawCells, hfirst, ih]

theorem collIsKeyPressed_scaleTime (c : Nat) (key : Byte) (s : State) :
    collIsKeyPressed key (s.scaleTime c) =
      ((collIsKeyPressed key s).1.scaleTime c, (collIsKeyPressed key s).2) := by
  unfold collIsKeyPressed
  split <;> rfl

theorem raises_scaleTime (c : Nat) (s : State) (i : Instr) : (s.scaleTime c).raises i = s.raises i := by
  cases i <;> rfl

/-- Registers and memory read the same in any unit. -/
@[simp] theorem scaleTime_getV (c : Nat) (s : State) (r : Reg) : (s.scaleTime c).getV r = s.getV r := rfl

@[simp] theorem scaleTime_bytesAtI (c : Nat) (s : State) (n : Nat) :
    (s.scaleTime c).bytesAtI n = s.bytesAtI n := rfl

/-- No effect reads or writes a time (R24). -/
theorem effect_scaleTime (c : Nat) (s : State) (i : Instr) :
    (s.scaleTime c).effect i = (s.effect i).scaleTime c := by
  cases i
  case drw x y n =>
    simp only [State.effect, scaleTime_getV, scaleTime_bytesAtI, drawCells_scaleTime]
    rfl
  case skp | sknp =>
    simp only [State.effect, State.polled, scaleTime_getV, collIsKeyPressed_scaleTime]
    rfl
  case ldVxMi x =>
    have hv := loadRegs_v_congr (s := s) (u := s.scaleTime c) rfl ((regsUpTo x).zip (s.bytesAtI (x.val + 1)))
    simp only [State.effect, scaleTime_bytesAtI, hv]
    rfl
  all_goals rfl

theorem after_scaleTime (c : Nat) (s : State) (i : Instr) :
    (s.scaleTime c).after i = (s.after i).scaleTime c := by
  rcases after_cases s i with ⟨f, a, hr, h⟩ | ⟨hr, h⟩ <;> rw [h]
  · exact after_of_raises ((raises_scaleTime c s i).trans hr)
  · rw [after_of_not_raises ((raises_scaleTime c s i).trans hr), effect_scaleTime]

theorem instrTick_scaleTime (c : Nat) (s : State) :
    instrTick (s.scaleTime c) = onNext (State.scaleTime c) (instrTick s) := by
  have hfetch : (s.scaleTime c).fetch = s.fetch := rfl
  rcases instrTick_next_cases s with ⟨a, ha, h⟩ | ⟨w, i, hw, hi, h⟩ | ⟨w, hw, hu, h⟩ <;>
    rw [h, onNext_next]
  · exact instrTick_of_fetch_error (hfetch.trans ha)
  · rw [instrTick_of_fetch_ok (hfetch.trans hw), execWord_of_ok hi, execute_next, after_scaleTime]
  · rw [instrTick_of_fetch_ok (hfetch.trans hw), execWord_of_unsupported hu]
    rfl

/-- Whether a period is over does not depend on the unit (R184). -/
theorem periodOver_mul {c : Nat} (hc : 0 < c) (now last period : Nat) :
    c * period ≤ c * now - c * last ↔ period ≤ now - last := by
  rw [← Nat.mul_sub, Nat.mul_le_mul_left_iff hc]

theorem timerCheck_scaleTime {c : Nat} (hc : 0 < c) (now : Time) (ran : Bool) (s : State) :
    timerCheck (T := Time) (c * now) ran (s.scaleTime c) = (timerCheck now ran s).scaleTime c := by
  have htick : timerTick (s.scaleTime c) = (timerTick s).scaleTime c := by
    rw [timerTick_eq, timerTick_eq]
    rfl
  have hover := periodOver_mul hc now s.tTimer s.params.pTimer
  by_cases h : (s.wait = none ∨ ran = true ∨ s.params.keyWait = .running) ∧ s.params.pTimer ≤ now - s.tTimer
  · rw [timerCheck_of_over h.1 h.2,
      timerCheck_of_over (s := s.scaleTime c) (now := c * now) h.1 (hover.mpr h.2), htick]
    rfl
  · rw [timerCheck, timerCheck, if_neg h, if_neg fun h' => h ⟨h'.1, hover.mp h'.2⟩]

theorem afterInstr_scaleTime {c : Nat} (hc : 0 < c) (now : Time) (u : State) :
    afterInstr (T := Time) (c * now) (u.scaleTime c) = (afterInstr now u).scaleTime c := by
  by_cases h : u.fault = none
  · rw [afterInstr_of_no_fault h, afterInstr_of_no_fault (show (u.scaleTime c).fault = none from h),
      ← timerCheck_scaleTime hc]
    rfl
  · rw [afterInstr_of_fault h, afterInstr_of_fault (show (u.scaleTime c).fault ≠ none from h)]

theorem keyDelivered_scaleTime (c : Nat) (k : Key) (s : State) :
    keyDelivered k (s.scaleTime c) = (keyDelivered k s).scaleTime c := by
  by_cases h : s.Waiting
  · obtain ⟨x, hw⟩ := Option.ne_none_iff_exists'.mp h.2
    rw [keyDelivered_of_wait h.1 hw, keyDelivered_of_wait (s := s.scaleTime c) h.1 hw]
    rfl
  · rw [keyDelivered_of_not_waiting h, keyDelivered_of_not_waiting (s := s.scaleTime c) h]

/-- A queued input is the next one in any unit. -/
theorem nextInput_scaleTime {s : State} (h : s.inputs ≠ []) (c : Nat) :
    (s.scaleTime c).nextInput = scaleInput c s.nextInput := by
  obtain ⟨e, l, hl⟩ := List.exists_cons_of_ne_nil h
  simp only [State.nextInput, State.scaleTime, hl, List.map_cons]

theorem takeInput_scaleTime {s : State} (h : s.inputs ≠ []) (c : Nat) :
    (s.scaleTime c).takeInput = s.takeInput.scaleTime c := by
  obtain ⟨e, l, hl⟩ := List.exists_cons_of_ne_nil h
  simp only [State.takeInput, State.scaleTime, hl, List.map_cons]

/-- The reading after an invocation, in any unit (R184). -/
theorem readTime_scaleTime {s : State} (h : s.inputs ≠ []) (c d : Nat) :
    (s.scaleTime c).takeInput.setClock (c * (s.clock + d)) = (s.takeInput.setClock (s.clock + d)).scaleTime c := by
  rw [takeInput_scaleTime h]
  rfl

/-- Settles O58: every part of a step commutes with the change of unit, and which parts run does not depend
on it. -/
theorem unitOfTimeDoesNotMatter : Obligations.UnitOfTimeDoesNotMatter := by
  intro c s hc hne
  have hnext := nextInput_scaleTime hne c
  by_cases hf : s.fault = none
  · cases hi : s.nextInput with
    | keyDelivered k =>
      rw [hi] at hnext
      rw [step_of_keyDelivered hf hi, step_of_keyDelivered (s := s.scaleTime c) hf hnext,
        takeInput_scaleTime hne, keyDelivered_scaleTime, onNext_next]
    | keyState k p =>
      rw [hi] at hnext
      rw [step_of_keyState hf hi, step_of_keyState (s := s.scaleTime c) hf hnext, takeInput_scaleTime hne]
      rfl
    | invoke d =>
      rw [hi] at hnext
      have hnow : (s.scaleTime c).clock + c * d = c * (s.clock + d) := (Nat.mul_add c s.clock d).symm
      have hover := periodOver_mul hc (s.clock + d) s.tInstr s.params.pInstr
      rw [← hnow] at hover
      have hread := readTime_scaleTime hne c d
      by_cases h : s.wait = none ∧ s.params.pInstr ≤ s.clock + d - s.tInstr
      · obtain ⟨u, hu⟩ := instrTick_next (s.takeInput.setClock (s.clock + d))
        rw [step_eq, step_eq, stepInput_of_instr ⟨hf, h.1⟩ hi h.2,
          stepInput_of_instr (s := s.scaleTime c) ⟨hf, h.1⟩ hnext (hover.mpr h.2), hnow, hread,
          instrTick_scaleTime, hu, onNext_next, onNext_next, onNext_next, onNext_next, afterInstr_scaleTime hc]
      · rw [step_eq, step_eq, stepInput_of_no_instr hf hi h,
          stepInput_of_no_instr (s := s.scaleTime c) hf hnext fun h' => h ⟨h'.1, hover.mp h'.2⟩, hnow, hread,
          onNext_next, timerCheck_scaleTime hc]
  · rw [step_eq, step_eq, stepInput_of_halted hf, stepInput_of_halted (s := s.scaleTime c) hf]
    rfl

end Sys2Proof.Machine

/-! ## Transfers, the call stack and unsupported words (40_flow.md R84 to R86, R91; 60_exceptions.md R173, R174) -/

namespace Sys2Proof.Machine

/-- Settles O11: the no-op is one output and the advance. -/
theorem unsupportedWordIsADiagnosedNoOp : Obligations.UnsupportedWordIsADiagnosedNoOp := fun _ s h =>
  ⟨_, execWord_of_unsupported h s, rfl, rfl, rfl, rfl, ((State.SameButOutside.refl s).emit _).advance⟩

/-- Settles O14: the jump is one write of pc, with a sum that does not wrap. -/
theorem jumpV0AddsV0 : Obligations.JumpV0AddsV0 := fun nnn s =>
  ⟨s.setPc (zextByte (s.getV 0) + zextNnn nnn), rfl, jumpV0_toNat _ nnn, setPc_sameButPc s _⟩

theorem State.SameButStack.refl (s : State) : s.SameButStack s :=
  have ⟨hregs, hmem, _, hrest⟩ := setPc_sameButPc s s.pc
  ⟨hregs, hmem, hrest⟩

/-- The stack is outside what `SameButStack` compares. -/
theorem State.SameButStack.setSlot {s u : State} (h : s.SameButStack u) (k : Nat) (w : Word) (sp : Nat) :
    s.SameButStack (u.setSlot k w sp) := h

/-- pc is outside what `SameButStack` compares. -/
theorem State.SameButStack.setPc {s u : State} (h : s.SameButStack u) (w : Word) :
    s.SameButStack (u.setPc w) := h

/-- Settles O15: with room the call raises nothing, and its effect is one slot, sp and pc. -/
theorem callPushesTheReturnAddress : Obligations.CallPushesTheReturnAddress := by
  intro nnn s hsize hroom
  have hslot (k : Nat) := getD_set_slot s.stack s.sp k (s.pc + 2) (hsize ▸ hroom)
  exact ⟨_, exec_of_not_raises (raises_call_eq_none.mpr (Nat.ne_of_lt hroom)), zextNnn_toNat nnn, rfl,
    (hslot s.sp).trans (if_pos rfl), fun k hk => (hslot k).trans (if_neg hk), List.length_set,
    ((State.SameButStack.refl s).setSlot _ _ _).setPc _⟩

/-- Settles O17: on a stack that is not empty the return raises nothing, and its effect is one slot, sp and pc. -/
theorem returnPopsAndClearsTheSlot : Obligations.ReturnPopsAndClearsTheSlot := by
  intro s hsize hbound hpos
  have hslot (k : Nat) := getD_set_slot s.stack (s.sp - 1) k 0 (by omega)
  exact ⟨_, exec_of_not_raises (raises_ret_eq_none.mpr (Nat.ne_of_gt hpos)), rfl, rfl,
    (hslot (s.sp - 1)).trans (if_pos rfl), fun k hk => (hslot k).trans (if_neg hk), List.length_set,
    ((State.SameButStack.refl s).setSlot _ _ _).setPc _⟩

/-- Settles O16: the record's word is the encoding of the call, which is the word that decoded to it. -/
theorem callOnAFullStackOverflows : Obligations.CallOnAFullStackOverflows := by
  intro w nnn s hw hfull
  have hr : s.raises (.call nnn) = some (.stackOverflow, none) := if_pos hfull
  refine ⟨_, (execWord_of_ok hw s).trans (exec_of_raises hr), ?_⟩
  rw [← encode_of_decodeWord hw]
  rfl

/-- Settles O18: an empty stack is where the return raises. -/
theorem returnOnAnEmptyStackUnderflows : Obligations.ReturnOnAnEmptyStackUnderflows := by
  intro w s hw hempty
  have hr : s.raises .ret = some (.stackUnderflow, none) := if_pos hempty
  exact ⟨_, (execWord_of_ok hw s).trans (exec_of_raises hr), rfl⟩

/-- A slot written and then cleared is as before, if it was clear (R17). -/
theorem set_set_of_clear {l : List Word} {k : Nat} (hk : k < l.length) (hclear : l.getD k 0 = 0) (w : Word) :
    (l.set k w).set k 0 = l := by
  rw [List.set_set, ← hclear, List.getD_eq_getElem _ _ hk, List.set_getElem_self]

/-- Settles O19: the return reads the slot the call wrote and clears it again, which the invariant says it was. -/
theorem returnAfterCallResumesAfterTheCall : Obligations.ReturnAfterCallResumesAfterTheCall := by
  intro nnn s t hinv hroom hcall
  have hlen : s.sp < s.stack.length := hinv.stackSize ▸ hroom
  have hpush := exec_of_not_raises (raises_call_eq_none (nnn := nnn).mpr (Nat.ne_of_lt hroom))
  obtain rfl := Host.Outcome.next.inj (hcall.symm.trans hpush)
  refine ⟨_, exec_of_not_raises (raises_ret_eq_none.mpr (Nat.succ_ne_zero s.sp)), ?_, rfl, ?_,
    ((((State.SameButStack.refl s).setSlot _ _ _).setPc _).setSlot _ _ _).setPc _⟩
  · exact (getD_set_slot s.stack s.sp s.sp (s.pc + 2) hlen).trans (if_pos rfl)
  · exact set_set_of_clear hlen (hinv.vacated s.sp (Nat.le_refl _)) _

end Sys2Proof.Machine

/-! ## Loads, logic and shifts (41_alu.md R103, R105 to R108, R111, R113) -/

namespace Sys2Proof.Machine

/-- Settles O21: each of the five is one register write and the advance. -/
theorem loadsAndLogicWriteOnlyVx : Obligations.LoadsAndLogicWriteOnlyVx := by
  intro x y nn s
  have hwrite (b : Byte) : (s.setV x b).advance.getV x = b ∧ (s.setV x b).advance.pc = s.pc + 2 ∧
      s.SameButReg x (s.setV x b).advance :=
    ⟨setV_getV_self s x b, rfl, setV_advance_sameButReg s x b⟩
  exact ⟨⟨_, rfl, hwrite nn⟩, ⟨_, rfl, hwrite (s.getV y)⟩, ⟨_, rfl, hwrite (s.getV x ||| s.getV y)⟩,
    ⟨_, rfl, hwrite (s.getV x &&& s.getV y)⟩, ⟨_, rfl, hwrite (s.getV x ^^^ s.getV y)⟩⟩

/-- A bit of a byte as a flag. -/
theorem flagByte_getLsbD_toNat (b : Byte) (k : Nat) : (flagByte (b.getLsbD k)).toNat = b.toNat / 2 ^ k % 2 := by
  rw [flagByte_toNat, BitVec.getLsbD, Nat.toNat_testBit]

theorem shiftLeft_toNat (b : Byte) :
    (shiftLeft b).1.toNat = 2 * b.toNat % 256 ∧ (flagByte (shiftLeft b).2).toNat = b.toNat / 128 := by
  have hb := b.isLt
  constructor
  · rw [shiftLeft, BitVec.toNat_shiftLeft, Nat.shiftLeft_eq]
    omega
  · rw [shiftLeft, flagByte_getLsbD_toNat]
    omega

theorem shiftRight_toNat (b : Byte) :
    (shiftRight b).1.toNat = b.toNat / 2 ∧ (flagByte (shiftRight b).2).toNat = b.toNat % 2 := by
  constructor
  · rw [shiftRight, BitVec.toNat_ushiftRight, Nat.shiftRight_eq_div_pow]
  · rw [shiftRight, flagByte_getLsbD_toNat]
    omega

/-- Settles O24: `setResultAndFlag` on the left shift. -/
theorem shiftLeftSetsVf : Obligations.ShiftLeftSetsVf := by
  intro x y s
  obtain ⟨hresult, hflag⟩ := shiftLeft_toNat (s.getV x)
  refine ⟨_, rfl, fun hx => ?_, ?_, rfl, setResultAndFlag_advance_sameButRegAndFlag s x _⟩
  · rw [advance_getV, setResultAndFlag_getV_of_ne s hx, hresult]
  · rw [advance_getV, setResultAndFlag_getV_vF, hflag]

/-- Settles O25: `setResultAndFlag` on the right shift. -/
theorem shiftRightSetsVf : Obligations.ShiftRightSetsVf := by
  intro x y s
  obtain ⟨hresult, hflag⟩ := shiftRight_toNat (s.getV x)
  refine ⟨_, rfl, fun hx => ?_, ?_, rfl, setResultAndFlag_advance_sameButRegAndFlag s x _⟩
  · rw [advance_getV, setResultAndFlag_getV_of_ne s hx, hresult]
  · rw [advance_getV, setResultAndFlag_getV_vF, hflag]

end Sys2Proof.Machine

/-! ## The index register, the timers and the generator (42_index_memory.md R120 to R122; 43_timers_random.md) -/

namespace Sys2Proof.Machine

/-- One write of I and the advance change nothing else. -/
theorem setI_advance_sameButIndex (s : State) (w : Word) : s.SameButIndex (s.setI w).advance :=
  ⟨setI_getV s w, State.SameButRegs.refl s⟩

/-- Settles O28: each of the two is one write of I, and five times a byte does not wrap. -/
theorem indexLoads : Obligations.IndexLoads := by
  intro nnn x s
  refine ⟨⟨_, rfl, zextNnn_toNat nnn, rfl, setI_advance_sameButIndex s _⟩,
    ⟨_, rfl, ?_, rfl, setI_advance_sameButIndex s _⟩⟩
  have hb := (s.getV x).isLt
  have h5 : (5 : Word).toNat = 5 := rfl
  rw [advance_i, setI_i, BitVec.toNat_mul, zextByte_toNat, h5]
  omega

/-- Settles O29: a sum that fits goes to I as it is, and above FFFF it is the address of the fault. -/
theorem indexAddOrFault : Obligations.IndexAddOrFault := by
  intro x s
  constructor
  · intro hfits
    refine ⟨_, exec_of_not_raises (if_neg (Nat.not_lt_of_le hfits)), ?_, rfl, setI_advance_sameButIndex s _⟩
    exact Nat.mod_eq_of_lt (Nat.lt_succ_of_le hfits)
  · intro hover
    exact ⟨_, exec_of_raises (if_pos hover), rfl⟩

/-- Settles O34: each of the three is one write and the advance. -/
theorem timerAccess : Obligations.TimerAccess := by
  intro x s
  obtain ⟨hregs, hmem, hstack, -, hsystem, houtside⟩ := setPc_sameButPc s s.pc
  exact ⟨⟨_, rfl, setV_getV_self s x s.dt, rfl, setV_advance_sameButReg s x s.dt⟩,
    ⟨_, rfl, rfl, rfl, rfl, hregs, hmem, hstack, hsystem, houtside⟩,
    ⟨_, rfl, rfl, rfl, rfl, hregs, hmem, hstack, hsystem, houtside⟩⟩

/-- Settles O35: one `rngStep`, whose byte goes to `V[x]` through the mask. -/
theorem randomDrawsOneMaskedByte : Obligations.RandomDrawsOneMaskedByte := by
  intro x nn s
  obtain ⟨hmem, hstack, htimers, ⟨-, hcontrol, henv⟩, houtside⟩ := State.SameButRegs.refl s
  have hbyte : (s.effect (.rnd x nn)).getV x = (rngStep s.rng).1 &&& nn := setV_getV_self _ x _
  refine ⟨_, exec_of_not_raises rfl, hbyte, ?_, rfl, rfl, rfl, fun r hr => setV_getV_ne hr, rfl, hmem, hstack,
    htimers, hcontrol, henv, houtside⟩
  rw [hbyte, BitVec.toNat_and]
  exact Nat.and_le_right

end Sys2Proof.Machine

/-! ## Keys (44_display_keypad.md R159 to R161) -/

namespace Sys2Proof.Machine

/-- A poll of a key the machine has answers its state (R153). -/
theorem collIsKeyPressed_of_key {key : Byte} {k : Key} (h : key.toNat = k.val) (s : State) :
    collIsKeyPressed key s = (s.emit (.isKeyPressed key s.coll.keys[k]), s.coll.keys[k]) := by
  obtain ⟨k, hk⟩ := k
  obtain rfl : key.toNat = k := h
  rw [collIsKeyPressed, dif_pos hk]
  rfl

/-- A poll of a key above 15 takes the next free answer (R153; log 9). -/
theorem collIsKeyPressed_of_lt {key : Byte} (h : 15 < key.toNat) (s : State) :
    collIsKeyPressed key s =
      ((s.setKeyPolls (s.keyPolls + 1)).emit (.isKeyPressed key (Config.freeKeyAnswer s.keyPolls)),
        Config.freeKeyAnswer s.keyPolls) := by
  rw [collIsKeyPressed, dif_neg (Nat.not_lt_of_le h)]

/-- The count of free answers is outside what `SameButOutside` compares. -/
theorem State.SameButOutside.setKeyPolls {s u : State} (h : s.SameButOutside u) (n : Nat) :
    s.SameButOutside (u.setKeyPolls n) := h

/-- pc is outside what `SameButOutside` compares. -/
theorem State.SameButOutside.setPc {s u : State} (h : s.SameButOutside u) (w : Word) :
    s.SameButOutside (u.setPc w) := h

/-- A poll leaves the core as it was (R150, R153). -/
theorem polled_sameButOutside (s : State) (key : Byte) : s.SameButOutside (s.polled key) :=
  ((State.SameButOutside.refl s).setKeyPolls _).emit _

/-- What the two key skips do once the answer of their poll and the count it leaves are known. -/
theorem keySkips_of_poll {x : Reg} {s : State} {p : Bool} {n : Nat}
    (hp : (collIsKeyPressed (s.getV x) s).2 = p) (hn : (collIsKeyPressed (s.getV x) s).1.keyPolls = n) :
    (∃ t, exec (.skp x) s = .next t ∧ t.pc = (if p = true then s.pc + 4 else s.pc + 2) ∧
      t.out = s.out ++ [.isKeyPressed (s.getV x) p] ∧ t.keyPolls = n ∧ t.coll = s.coll ∧ s.SameButOutside t) ∧
    (∃ t, exec (.sknp x) s = .next t ∧ t.pc = (if p = true then s.pc + 2 else s.pc + 4) ∧
      t.out = s.out ++ [.isKeyPressed (s.getV x) p] ∧ t.keyPolls = n ∧ t.coll = s.coll ∧
      s.SameButOutside t) := by
  have hpolled (w : Word) : let t := (s.polled (s.getV x)).setPc w
      t.out = s.out ++ [.isKeyPressed (s.getV x) p] ∧ t.keyPolls = n ∧ t.coll = s.coll ∧
        s.SameButOutside t := by
    refine ⟨?_, ?_, rfl, (polled_sameButOutside s _).setPc w⟩
    · rw [← hp]
      rfl
    · rw [← hn]
      rfl
  have hskp : exec (.skp x) s =
      .next ((s.polled (s.getV x)).setPc (if p = true then s.pc + 4 else s.pc + 2)) := by
    rw [← hp]
    exact exec_of_not_raises rfl
  have hsknp : exec (.sknp x) s =
      .next ((s.polled (s.getV x)).setPc (if p = true then s.pc + 2 else s.pc + 4)) := by
    refine (exec_of_not_raises rfl).trans ?_
    simp only [State.effect, hp]
    cases p <;> rfl
  exact ⟨⟨_, hskp, rfl, hpolled _⟩, ⟨_, hsknp, rfl, hpolled _⟩⟩

/-- Settles O41: the poll decides both skips, and what it answers depends on whether there is such a key. -/
theorem keySkips : Obligations.KeySkips := by
  intro x s
  constructor
  · intro k hk
    have hpoll := collIsKeyPressed_of_key hk s
    exact keySkips_of_poll (congrArg Prod.snd hpoll) (congrArg (fun r => r.1.keyPolls) hpoll)
  · intro hlt
    have hpoll := collIsKeyPressed_of_lt hlt s
    exact ⟨_, keySkips_of_poll (congrArg Prod.snd hpoll) (congrArg (fun r => r.1.keyPolls) hpoll)⟩

/-- Settles O42: the request is one output and one write of WAIT. -/
theorem keyWaitBegins : Obligations.KeyWaitBegins := by
  intro x s
  obtain ⟨hregs, hmem, hstack, htimers, ⟨hrng, -, henv⟩, -⟩ := setPc_sameButPc s s.pc
  exact ⟨_, rfl, rfl, rfl, rfl, rfl, rfl, rfl, hrng, hregs, hmem, hstack, htimers, henv⟩

end Sys2Proof.Machine

/-! ## Stores and loads at I (42_index_memory.md R123 to R126; 20_memory.md R53) -/

namespace Sys2Proof.Machine

/-- The `k`-th byte of a store from I up (R126). -/
theorem storeAtI_byteAt_effAddr {s : State} (hm : s.mem.wf) {bs : List Byte}
    (h : s.i.toNat + bs.length ≤ 0x1000) {k : Nat} (hk : k < bs.length) :
    (s.storeAtI bs).byteAt (s.effAddr k) = bs.getD k 0 := by
  rw [storeAtI_byteAt hm h, State.effAddr, if_pos ⟨Nat.le_add_right _ _, Nat.add_lt_add_left hk _⟩,
    Nat.add_sub_cancel_left]

/-- A byte outside a store from I up (R126). -/
theorem storeAtI_byteAt_outside {s : State} (hm : s.mem.wf) {bs : List Byte}
    (h : s.i.toNat + bs.length ≤ 0x1000) {a : Nat} (ha : ∀ k, k < bs.length → a ≠ s.effAddr k) :
    (s.storeAtI bs).byteAt a = s.byteAt a := by
  rw [storeAtI_byteAt hm h, if_neg]
  rintro ⟨hle, hlt⟩
  exact ha (a - s.i.toNat) (by omega) (Nat.add_sub_cancel' hle).symm

/-- The two stores write memory and pc alone (R123, R124). -/
theorem effect_sameButMemory {i : Instr} (h : storesMemory i = true) (s : State) :
    s.SameButMemory (s.effect i) := by
  cases i <;> cases h <;> exact State.SameButMemory.refl s

/-- The digits of a byte fit a byte each (R123). -/
theorem decimalDigits_toNat (b : Byte) :
    ((decimalDigits b).getD 0 0).toNat = b.toNat / 100 ∧ ((decimalDigits b).getD 1 0).toNat = b.toNat / 10 % 10 ∧
      ((decimalDigits b).getD 2 0).toNat = b.toNat % 10 := by
  have hb := b.isLt
  simp only [decimalDigits, List.getD_cons_zero, List.getD_cons_succ, BitVec.toNat_ofNat]
  omega

/-- Settles O30: the store of the three digits when I, I + 1 and I + 2 lie in memory, else its fault. -/
theorem decimalStore : Obligations.DecimalStore := by
  intro x s hm
  constructor
  · intro hi
    have hfits : s.i.toNat + (decimalDigits (s.getV x)).length ≤ 0x1000 := Nat.add_le_add_right hi 3
    have hbyte {k : Nat} (hk : k < 3) := storeAtI_byteAt_effAddr hm hfits hk
    obtain ⟨h0, h1, h2⟩ := decimalDigits_toNat (s.getV x)
    exact ⟨_, exec_of_not_raises (accessRaises_eq_none.mpr (.inr hfits)),
      (congrArg BitVec.toNat (hbyte (by decide))).trans h0, (congrArg BitVec.toNat (hbyte (by decide))).trans h1,
      (congrArg BitVec.toNat (hbyte (by decide))).trans h2, fun a ha => storeAtI_byteAt_outside hm hfits ha, rfl,
      effect_sameButMemory rfl s⟩
  · intro hi
    exact ⟨_, exec_of_raises (accessRaises_of_lt (by decide) (by omega)), rfl⟩

/-- Settles O31: the store of V0 to Vx when its bytes lie in memory, else its fault. -/
theorem registerStore : Obligations.RegisterStore := by
  intro x s hm
  constructor
  · intro hi
    have hlen := valuesUpTo_length s x
    have hfits : s.i.toNat + (s.valuesUpTo x).length ≤ 0x1000 := by omega
    refine ⟨_, exec_of_not_raises (accessRaises_eq_none.mpr (.inr (Nat.succ_le_succ hi))), fun k hk => ?_,
      fun a ha => ?_, rfl, effect_sameButMemory rfl s⟩
    · exact (storeAtI_byteAt_effAddr hm hfits (hlen ▸ Nat.lt_succ_of_le hk)).trans (valuesUpTo_getD s hk)
    · refine storeAtI_byteAt_outside hm hfits fun k hk => ?_
      rw [hlen] at hk
      exact ha ⟨k, Nat.lt_of_lt_of_le hk x.isLt⟩ (Nat.le_of_lt_succ hk)
  · intro hi
    exact ⟨_, exec_of_raises (accessRaises_of_lt (Nat.succ_pos _) (Nat.succ_lt_succ hi)), rfl⟩

/-- Settles O32: the load of V0 to Vx when its bytes lie in memory, else its fault. -/
theorem registerLoad : Obligations.RegisterLoad := by
  intro x s
  constructor
  · intro hi
    have hreg := loadRegs_upTo_getV s (bytesAtI_length s (x.val + 1))
    refine ⟨_, exec_of_not_raises (accessRaises_eq_none.mpr (.inr (Nat.succ_le_succ hi))), fun k hk => ?_,
      fun k hk => ?_, rfl, rfl, State.SameButRegs.refl s⟩
    · exact (hreg k).trans ((if_pos hk).trans (bytesAtI_getD s (Nat.lt_succ_of_le hk)))
    · exact (hreg k).trans (if_neg (Fin.not_le.mpr hk))
  · intro hi
    exact ⟨_, exec_of_raises (accessRaises_of_lt (Nat.succ_pos _) (Nat.succ_lt_succ hi)), rfl⟩

/-- Settles O33: the two bytes the fetch reads are the ones `RegisterStore` says were stored. -/
theorem fetchSeesJustStoredBytes : Obligations.FetchSeesJustStoredBytes := by
  intro x k j s t hm hx hf hj hjk hpc
  have hfits : s.i.toNat + x.val ≤ 0xFFF := by
    by_contra hlt
    obtain ⟨u, hu, hhalt⟩ := (registerStore x s hm).2 (Nat.lt_of_not_le hlt)
    obtain rfl := Host.Outcome.next.inj (hx.symm.trans hu)
    rw [hhalt] at hf
    cases hf
  obtain ⟨u, hu, hstored, -⟩ := (registerStore x s hm).1 hfits
  obtain rfl := Host.Outcome.next.inj (hx.symm.trans hu)
  have hjx : j.val ≤ x.val := hj
  have hkx : k ≤ x := Fin.le_def.mpr (by omega)
  have hnext : s.effAddr k.val + 1 = s.effAddr j.val := by
    rw [hjk]
    rfl
  have hroom : s.effAddr j.val < Config.memSize := by
    simp only [State.effAddr, Config.memSize]
    omega
  rw [fetch_eq, hpc, hnext, if_pos hroom, hstored k hkx, hstored j hj]

end Sys2Proof.Machine

/-! ## Pixels (44_display_keypad.md R152, R158) -/

namespace Sys2Proof.Machine

/-- The last of two values put into one pixel stays. -/
theorem putPixel_putPixel {fb : List (List Bool)} {row : Nat} (hr : row < fb.length) (col : Nat) (b b' : Bool) :
    putPixel (putPixel fb row col b) row col b' = putPixel fb row col b' := by
  simp only [putPixel, List.set_set, List.getD_eq_getElem?_getD, List.getElem?_set_self hr, Option.getD_some]

/-- Putting a pixel's own value changes nothing. -/
theorem putPixel_pixelAt {fb : List (List Bool)} {row col : Nat} (hr : row < fb.length)
    (hc : col < (fb.getD row []).length) : putPixel fb row col (pixelAt fb row col) = fb := by
  rw [putPixel, pixelAt, List.getD_eq_getElem _ _ hc, List.set_getElem_self, List.getD_eq_getElem _ _ hr,
    List.set_getElem_self]

/-- Settles O38: the call puts the negated pixel in place of the old one, and a second call negates it again. -/
theorem setPixelTogglesAndReports : Obligations.SetPixelTogglesAndReports := by
  intro x y s hs t row col
  obtain ⟨hrow, hcol⟩ : row < s.coll.fb.length ∧ col < (s.coll.fb.getD row []).length :=
    FbShape.wrap_lt hs (x, y)
  have hfb : t.coll.fb = putPixel s.coll.fb row col (!pixelAt s.coll.fb row col) := by
    rw [← Bool.xor_true]
    rfl
  have hpixel (r c : Nat) : pixelAt t.coll.fb r c =
      if (r, c) = (row, col) then !pixelAt s.coll.fb row col else pixelAt s.coll.fb r c := by
    rw [hfb, pixelAt_putPixel hrow hcol]
  have hself : pixelAt t.coll.fb row col = !pixelAt s.coll.fb row col := by rw [hpixel, if_pos rfl]
  refine ⟨hself, Bool.and_true _, fun r c hne => by rw [hpixel, if_neg hne], ?_, ?_⟩
  · calc (collSetPixel x y true t).1.coll.fb
        = putPixel t.coll.fb row col (!pixelAt t.coll.fb row col) := by rw [← Bool.xor_true]; rfl
      _ = putPixel s.coll.fb row col (pixelAt s.coll.fb row col) := by
          rw [hself, hfb, putPixel_putPixel hrow, Bool.not_not]
      _ = s.coll.fb := putPixel_pixelAt hrow hcol
  · exact (Bool.and_true _).trans hself

/-! ### Drawing (R158) -/

/-- What `Dxyn` leaves behind when its rows lie in memory, by the calls R158 lists. -/
theorem effect_drw (s : State) (x y : Reg) (n : Fin 16) :
    let drawn := drawCells (s.spriteCalls x y n.val) s
    s.effect (.drw x y n) = { (s.setV vF (flagByte drawn.2)).advance with
      coll := { s.coll with fb := drawn.1.coll.fb }
      out := drawn.1.out } := by
  rw [← spriteCells_eq]
  rfl

theorem exec_drw_of_fits {s : State} (x y : Reg) {n : Fin 16} (h : n.val = 0 ∨ s.i.toNat + n.val ≤ 0x1000) :
    exec (.drw x y n) s = .next (s.effect (.drw x y n)) :=
  exec_of_not_raises (accessRaises_eq_none.mpr h)

/-- VF is 1 exactly when a call reported a collision (R158). -/
theorem effect_drw_vF (s : State) (x y : Reg) (n : Fin 16) :
    (s.effect (.drw x y n)).getV vF = flagByte (drawCells (s.spriteCalls x y n.val) s).2 := by
  rw [effect_drw]
  exact setV_getV_self s vF _

theorem flagByte_eq_one {c : Bool} : flagByte c = 1 ↔ c = true := by
  cases c <;> decide

/-- Settles O39: the calls are those R158 lists, `drawCells` makes them in order, and its collision is the flag. -/
theorem drawCompletesOrFaults : Obligations.DrawCompletesOrFaults := by
  intro x y n s
  constructor
  · intro hfits
    have hvF := effect_drw_vF s x y n
    have heff := effect_drw s x y n
    obtain ⟨hmem, hstack, htimers, hsystem, -⟩ := State.SameButRegs.refl s
    refine ⟨_, exec_drw_of_fits x y hfits, ⟨?_, ?_, ?_⟩, fun hn => ⟨?_, ?_⟩, ?_, fun r hr => ?_, rfl, rfl, hmem,
      hstack, htimers, hsystem, rfl, rfl, rfl⟩
    · rw [heff]
      exact drawCells_out _ s
    · rw [hvF, flagByte_eq_one, drawCells_hit]
    · rw [heff]
    · rw [hvF, hn]
      rfl
    · rw [heff, hn]
      exact ⟨rfl, rfl, rfl⟩
    · rw [hvF]
      exact flagByte_zero_or_one _
    · exact setV_getV_ne hr
  · intro hn hover
    exact ⟨_, exec_of_raises (accessRaises_of_lt hn hover), rfl⟩

/-- Two offsets smaller than the modulus reach different coordinates from one start. -/
theorem add_mod_inj {a b c m : Nat} (hb : b < m) (hc : c < m) (h : (a + b) % m = (a + c) % m) : b = c :=
  (Nat.ModEq.add_left_cancel' a h).eq_of_lt_of_lt hb hc

theorem mem_spriteCalls_wrap (s : State) (x y : Reg) (n row col : Nat) :
    (row, col) ∈ (s.spriteCalls x y n).map s.wrap ↔ s.Covers x y n row col := by
  simp only [State.spriteCalls, State.wrap, State.Covers, List.map_flatMap, List.map_map, List.mem_flatMap,
    List.mem_map, List.mem_filter, List.mem_range, Function.comp_apply, Prod.mk.injEq]
  constructor
  · rintro ⟨r, hr, c, ⟨hc, hbit⟩, hrow, hcol⟩
    exact ⟨r, c, hr, hc, hbit, hrow, hcol⟩
  · rintro ⟨r, c, hr, hc, hbit, hrow, hcol⟩
    exact ⟨r, hr, c, ⟨hc, hbit⟩, hrow, hcol⟩

/-- On a framebuffer at least 8 wide and as high as the sprite no two of its calls reach one pixel. -/
theorem spriteCalls_wrap_nodup {s : State} (x y : Reg) {n : Nat} (hw : 8 ≤ s.params.fbW) (hh : n ≤ s.params.fbH) :
    ((s.spriteCalls x y n).map s.wrap).Nodup := by
  simp only [State.spriteCalls, List.map_flatMap, List.map_map]
  refine List.nodup_flatMap.mpr ⟨fun r _ => ?_, ?_⟩
  · refine (List.nodup_range.filter _).map_on fun c hc c' hc' h => ?_
    have hc := List.mem_range.mp (List.mem_of_mem_filter hc)
    have hc' := List.mem_range.mp (List.mem_of_mem_filter hc')
    exact add_mod_inj (by omega) (by omega) (Prod.mk.inj h).2
  · refine List.nodup_range.imp_of_mem fun {r r'} hr hr' hne => ?_
    have hr := List.mem_range.mp hr
    have hr' := List.mem_range.mp hr'
    intro p hp hp'
    obtain ⟨c, -, rfl⟩ := List.mem_map.mp hp
    obtain ⟨c', -, h⟩ := List.mem_map.mp hp'
    exact hne (add_mod_inj (by omega) (by omega) (Prod.mk.inj h).1.symm)

/-- Settles O40: no two calls reach one pixel, so `drawCells` toggles each pixel it reaches once. -/
theorem drawTogglesCoveredPixels : Obligations.DrawTogglesCoveredPixels := by
  intro x y n s hs hw hh hfits
  have hnodup := spriteCalls_wrap_nodup x y (n := n.val) hw (by omega)
  obtain ⟨-, htoggle, hhit⟩ := drawCells_toggles hs hnodup
  have hpixel (row col : Nat) : pixelAt (s.effect (.drw x y n)).coll.fb row col =
      (pixelAt s.coll.fb row col ^^ decide ((row, col) ∈ (s.spriteCalls x y n.val).map s.wrap)) := by
    rw [effect_drw]
    exact htoggle row col
  refine ⟨_, exec_drw_of_fits x y hfits, ?_, fun row col hc => ?_, fun row col hc => ?_, ?_⟩
  · rw [effect_drw]
    exact ⟨hs.1, drawCells_shape _ hs.2.1 hs.2.2⟩
  · rw [hpixel, decide_eq_true ((mem_spriteCalls_wrap s x y n row col).mpr hc), Bool.xor_true]
  · rw [hpixel, decide_eq_false (mt (mem_spriteCalls_wrap s x y n row col).mp hc), Bool.xor_false]
  · rw [effect_drw_vF, flagByte_eq_one, hhit]
    constructor
    · rintro ⟨p, hp, hset⟩
      exact ⟨p.1, p.2, (mem_spriteCalls_wrap s x y n p.1 p.2).mp hp, hset⟩
    · rintro ⟨row, col, hc, hset⟩
      exact ⟨(row, col), (mem_spriteCalls_wrap s x y n row col).mpr hc, hset⟩

end Sys2Proof.Machine

/-! ## Construction (10_state.md section 11; 70_reset_and_hazards.md R200, R202) -/

namespace Sys2Proof.Machine

/-- A clear stack reads 0 in every slot, and beyond its depth. -/
theorem getD_replicate_zero (n k : Nat) : (List.replicate n (0 : Word)).getD k 0 = 0 := by
  rw [List.getD_eq_getElem?_getD, List.getElem?_replicate]
  split <;> rfl

/-- Settles O6: construction is the fresh state with the image loaded over it. -/
theorem constructGivesEveryElementItsValue : Obligations.ConstructGivesEveryElementItsValue := by
  intro T p seed prog t0 hlen
  have hload := load_of_length_le (State.fresh p seed t0) hlen
  have hwf := fresh_mem_wf p seed t0
  have hfresh {a : Nat} (ha : a < 0x200 ∨ 0x200 + prog.length ≤ a) :=
    (load_byteAt_outside hwf hload ha).trans (fresh_byteAt p seed t0 a)
  refine ⟨_, hload, fun r => ?_, rfl, rfl, rfl, List.length_replicate, getD_replicate_zero _, rfl, rfl, rfl,
    fun k hk => ?_, fun a hlo hhi => ?_, fun k hk => load_byteAt_image hwf hload hk, fun a hlo _ => ?_, rfl, rfl,
    rfl, rfl, rfl⟩
  · exact Vector.getElem_replicate r.isLt
  · rw [hfresh (.inl (by omega)), if_pos hk]
  · rw [hfresh (.inl hhi), if_neg (by omega)]
  · rw [hfresh (.inr hlo), if_neg (by omega)]

/-- A freshly constructed machine meets the invariant. -/
theorem fresh_inv (p : Config.Params) (seed : Nat) (t0 : Time) : (State.fresh p seed t0).Inv where
  memWf := fresh_mem_wf p seed t0
  stackSize := List.length_replicate
  spBound := Nat.zero_le _
  vacated := fun k _ => getD_replicate_zero _ k
  returns := fun k hk => absurd hk (Nat.not_lt_zero k)
  pcBound := show (0x200 : Word).toNat ≤ 0x10FE by decide
  waitPc := fun h => absurd rfl h
  oneStop := fun _ => rfl
  instrPast := Nat.le_refl _
  timerPast := Nat.le_refl _
  fbRows := (blankFb_shape p.fbW p.fbH).1
  fbCols := (blankFb_shape p.fbW p.fbH).2

/-- Settles O56: the image fits the program region, so loading it keeps the memory's canonical form. -/
theorem constructionMeetsTheInvariant : Obligations.ConstructionMeetsTheInvariant := by
  intro p seed prog t0 s h
  by_cases hlen : prog.length ≤ Config.progMax
  · have hload := load_of_length_le (State.fresh p seed t0) hlen
    obtain rfl := Except.ok.inj (h.symm.trans hload)
    exact { fresh_inv p seed t0 with
      memWf := Memory.writeBytes_wf (fresh_mem_wf p seed t0) (Nat.add_le_add_left hlen 0x200) }
  · have hload := load_of_lt_length (State.fresh p seed t0) (Nat.lt_of_not_le hlen)
    cases h.symm.trans hload

/-- Settles O55: the reset state is the construction of the empty program (log 3). -/
theorem resetMeetsTheInvariant : Obligations.ResetMeetsTheInvariant :=
  constructionMeetsTheInvariant Config.defaultParams 0 [] 0 State.reset rfl

end Sys2Proof.Machine
